-- ==== Sys2Proof/Word.lean ====
section
/-! DEFINITION. The words of the block: every datum on the bus is a byte, a register address has five
bits, a pipe is one of six (00_scope.md R8, 30_encoding.md R61, 10_state.md R15). -/

namespace Sys2Proof

/-- A byte, unsigned, bit 0 the least significant (R8). -/
abbrev Byte := BitVec 8

/-- A 5-bit register address (R23, R61). -/
abbrev RegAddr := BitVec 5

/-- A receive pipe, 0 to 5 (R15: pipe index in [0,5]); a pipe index of 6 or 7 is no `Pipe` (R77). -/
abbrev Pipe := Fin 6

/-- The number of a bit of a byte, 0 to 7 (R8). -/
abbrev BitNo := Fin 8

end Sys2Proof
end

