-- ==== Sys2Proof/Config.lean ====
section
/-! DEFINITION. What one implementation fixes and what the spec leaves free: the identifiers of the
Register Map (R23, R81), the parameter record of table P (R5, R6, R7), and the opaque constants that stand
for the draws of the environment (R46, R92, R226). The values of the sourced literals and the defaults of
the record stand in Machine/RegisterMap.lean. -/

namespace Sys2Proof

/-- The symbolic register identifiers (10_state.md table S, R23, R81). -/
inductive RegisterId
  | config | enAa | enRxaddr | setupAw | setupRetr | rfCh | rfSetup | status | observeTx | rpd
  | rxAddrP (p : Pipe) | txAddr | rxPwP (p : Pipe) | fifoStatus | feature
deriving DecidableEq, Repr

/-- The symbolic command identifiers (30_encoding.md table B, R80, R81). -/
inductive CommandId
  | rRegister | wRegister | rRxPayload | wTxPayload | wTxPayloadNoack | rRxPlWid
  | wAckPayload | flushTx | flushRx | reuseTxPl | activate | nop
deriving DecidableEq, Repr

/-- The four power levels, in rising order (R78, table P row PWR_CODE). -/
inductive PowerLevel
  | min | low | high | max
deriving DecidableEq, Repr

/-- A field of a byte, bits `hi` down to `lo` (R8). -/
structure BitField where
  hi : BitNo
  lo : BitNo
deriving DecidableEq, Repr

/-- The parameter record of the model (R5, R6 table P rows marked param, R7). It is held in the state, is
written by no operation, and every statement about all states is a statement about every record. -/
structure Params where
  /-- R5: identity of the enable line, opaque to the block. -/
  enableLineId : Nat
  /-- R5: identity of the chip-select line, opaque to the block. -/
  chipSelectId : Nat
  /-- R5: transport implementation selector, never inspected by the block. -/
  transport : Nat
  /-- R5, R11: requested static payload size. -/
  staticPayloadSizeReq : Int
  /-- R5: initial channel. -/
  initialChannel : Byte
  /-- D30: default of the timeout operand of `write`. -/
  timeoutDefault : Nat
  aEnAa : RegAddr
  aEnRxaddr : RegAddr
  aSetupAw : RegAddr
  aSetupRetr : RegAddr
  aRfCh : RegAddr
  aRfSetup : RegAddr
  aStatus : RegAddr
  aObserveTx : RegAddr
  aRpd : RegAddr
  aRxAddrP : Vector RegAddr 6
  aTxAddr : RegAddr
  aRxPwP : Vector RegAddr 6
  aFifoStatus : RegAddr
  cWTxPayload : Byte
  cWTxPayloadNoack : Byte
  cRRxPlWid : Byte
  cWAckPayload : Byte
  cReuseTxPl : Byte
  /-- Bytes sent after the activate op-code (R197). -/
  activateArg : List Byte
  bEnCrc : BitNo
  bCrco : BitNo
  bPwrUp : BitNo
  bPrimRx : BitNo
  bEnDpl : BitNo
  bEnAckPay : BitNo
  bFsRxEmpty : BitNo
  bFsRxFull : BitNo
  bFsTxEmpty : BitNo
  bFsTxFull : BitNo
  plosCnt : BitField
  arcCnt : BitField
  pwrMin : BitVec 2
  pwrLow : BitVec 2
  pwrHigh : BitVec 2
  pwrMax : BitVec 2
deriving DecidableEq, Repr

/-- What the transport answers to one call of `write_bytes` or `read_bytes` (R90, R92, R214): success, or a
failure with the transport's own report. `sent` is the number of bytes of a failed `write_bytes` that reached
the bus, any prefix (R92, U12); a failed `read_bytes` delivers nothing (95_test_vectors.md V40.15). -/
inductive IoAnswer
  | ok
  | fail (sent report : Nat)
deriving DecidableEq, Repr, Inhabited

/-- FREE VALUE: the answer of the k-th transport call that no script fixes (R92, R214, D10). -/
opaque Config.freeIo : Nat → IoAnswer

/-- FREE VALUE: the k-th byte read from the bus that no script fixes (R46, U10). -/
opaque Config.freeRx : Nat → Byte

/-- FREE VALUE: by how much the k-th reading of the clock exceeds the one before it (R226, U11). -/
opaque Config.freeTick : Nat → Nat

/-- OPEN PARAMETER: the default of `write`'s timeout operand (D30, U15). -/
opaque Config.timeoutDefault : Nat

/-- OPEN PARAMETER: identity of the enable line (R5). -/
opaque Config.enableLineId : Nat

/-- OPEN PARAMETER: identity of the chip-select line (R5). -/
opaque Config.chipSelectId : Nat

/-- OPEN PARAMETER: transport implementation selector (R5). -/
opaque Config.transport : Nat

end Sys2Proof
end

