-- ==== Sys2Proof/Syntax.lean ====
section
/-! DEFINITION. The instructions: one constructor for every row of spec/opcode_table.json, the twelve bus
commands (R100 to R111) and the thirty-four host operations (R75), with their operands. -/

namespace Sys2Proof

/-- The two spaces of the opcode table: requests of the host, and commands of the bus transaction framer. -/
inductive Space
  | host | bus
deriving DecidableEq, Repr

/-- The three datarates (R78). -/
inductive Datarate
  | rate250kbps | rate1mbps | rate2mbps
deriving DecidableEq, Repr

/-- The datarate operand of `rf_setup`: a symbol of the list or any other symbol (R122). -/
inductive DatarateArg
  | known (d : Datarate)
  | other
deriving DecidableEq, Repr

/-- The power operand of `rf_setup`: a symbol of the list, a number, or any other symbol (R78, R122). -/
inductive PowerArg
  | level (p : PowerLevel)
  | number (dbm : Int)
  | other
deriving DecidableEq, Repr

/-- CRC modes as `crc_length` answers them (R78, R124). -/
inductive CrcMode
  | crc16 | crc8 | none
deriving DecidableEq, Repr

/-- The operand of `set_crc_length`: a number, one of the two accepted symbols, or any other symbol (R125). -/
inductive CrcArg
  | number (n : Int)
  | crc16
  | crc8
  | other
deriving DecidableEq, Repr

/-- The acknowledge mode of `write` (R78, R150). -/
inductive AckMode
  | ack | noAck
deriving DecidableEq, Repr

/-- The register operand of `read_register` and `write_register`: an identifier of the enumeration, which the
block replaces by its address (R81), or any 5-bit address, with a name or without (R59, R76). -/
inductive RegOperand
  | named (id : RegisterId)
  | address (a : RegAddr)
deriving DecidableEq, Repr

/-- The command operand of `send_command`: an identifier of the enumeration, which the block replaces by its
op-code (R81), or any 8-bit value, as the caller supplies it for W_ACK_PAYLOAD with its pipe (R76, R96). -/
inductive CmdOperand
  | named (c : CommandId)
  | opcode (b : Byte)
deriving DecidableEq, Repr

/-- The value operand of `write_register`: one byte, or a byte sequence (R95). -/
inductive RegValue
  | byte (b : Byte)
  | bytes (bs : List Byte)
deriving DecidableEq, Repr

/-- One instruction of the block: a row of the opcode table with its operands. -/
inductive Instr
  /-- R_REGISTER, R100: read `len` bytes of register `addr`. -/
  | cmdRRegister (addr : RegAddr) (len : BitVec 3)
  /-- W_REGISTER, R101. -/
  | cmdWRegister (addr : RegAddr) (data : List Byte)
  /-- R_RX_PAYLOAD, R102: `n` bytes of payload. -/
  | cmdRRxPayload (n : Byte)
  /-- W_TX_PAYLOAD, R103. -/
  | cmdWTxPayload (data : List Byte)
  /-- W_TX_PAYLOAD_NOACK, R104. -/
  | cmdWTxPayloadNoack (data : List Byte)
  /-- R_RX_PL_WID, R105. -/
  | cmdRRxPlWid
  /-- W_ACK_PAYLOAD, R106. -/
  | cmdWAckPayload (pipe : Pipe) (data : List Byte)
  /-- FLUSH_TX, R107. -/
  | cmdFlushTx
  /-- FLUSH_RX, R108. -/
  | cmdFlushRx
  /-- REUSE_TX_PL, R109. -/
  | cmdReuseTxPl
  /-- ACTIVATE, R110. -/
  | cmdActivate
  /-- NOP, R111. -/
  | cmdNop
  /-- `read_register`, R94. -/
  | readRegister (id : RegOperand) (length : BitVec 3)
  /-- `write_register`, R95. -/
  | writeRegister (id : RegOperand) (value : RegValue)
  /-- `send_command`, R96. -/
  | sendCommand (cmd : CmdOperand) (responseLength : Byte)
  /-- `set_channel`, R120. -/
  | setChannel (ch : Byte)
  /-- `channel`, R121. -/
  | channel
  /-- `rf_setup`, R122. -/
  | rfSetup (datarate : DatarateArg) (power : PowerArg)
  /-- `datarate`, R123. -/
  | datarate
  /-- `crc_length`, R124. -/
  | crcLength
  /-- `set_crc_length`, R125. -/
  | setCrcLength (len : CrcArg)
  /-- `set_retries`, R126. -/
  | setRetries (delay count : BitVec 4)
  /-- `set_address_width`, R127. -/
  | setAddressWidth (n : BitVec 3)
  /-- `address_width`, R128. -/
  | addressWidth
  /-- `open_reading_pipe`, R140. -/
  | openReadingPipe (pipe : Pipe) (address : List Byte)
  /-- `close_reading_pipe`, R141. -/
  | closeReadingPipe (pipe : Pipe)
  /-- `open_writing_pipe`, R142. -/
  | openWritingPipe (address : List Byte)
  /-- `write`, R150; an absent timeout is the parameter TIMEOUT_DEFAULT (R79, D30). -/
  | write (payload : List Byte) (ackMode : AckMode) (timeout : Option Nat)
  /-- `read`, R155. -/
  | read
  /-- `set_ack_payload`, R156. -/
  | setAckPayload (pipe : Pipe) (payload : List Byte)
  /-- `flush_tx`, R157. -/
  | flushTx
  /-- `flush_rx`, R158. -/
  | flushRx
  /-- `reuse_tx_payload`, R160. -/
  | reuseTxPayload
  /-- `status`, R170. -/
  | status
  /-- `data_available?`, R171. -/
  | dataAvailable
  /-- `interrupt_flags`, R172. -/
  | interruptFlags
  /-- `fifo_flags`, R173. -/
  | fifoFlags
  /-- `clear_interrupt_flags`, R174. -/
  | clearInterruptFlags
  /-- `received_power`, R175. -/
  | receivedPower
  /-- `observe_tx`, R176. -/
  | observeTx
  /-- `dynamic_payloads_enabled?`, R178. -/
  | dynamicPayloadsEnabled
  /-- `ack_payloads_enabled?`, R179. -/
  | ackPayloadsEnabled
  /-- `init`, R191. -/
  | init
  /-- `start_listening`, R194. -/
  | startListening
  /-- `stop_listening`, R195. -/
  | stopListening
  /-- `teardown`, R196. -/
  | teardown
deriving DecidableEq, Repr

/-- The space of an instruction's row in the opcode table. -/
def Instr.space : Instr → Space
  | .cmdRRegister _ _ | .cmdWRegister _ _ | .cmdRRxPayload _ | .cmdWTxPayload _
  | .cmdWTxPayloadNoack _ | .cmdRRxPlWid | .cmdWAckPayload _ _ | .cmdFlushTx | .cmdFlushRx
  | .cmdReuseTxPl | .cmdActivate | .cmdNop => .bus
  | .readRegister _ _ | .writeRegister _ _ | .sendCommand _ _ | .setChannel _ | .channel
  | .rfSetup _ _ | .datarate | .crcLength | .setCrcLength _ | .setRetries _ _
  | .setAddressWidth _ | .addressWidth | .openReadingPipe _ _ | .closeReadingPipe _
  | .openWritingPipe _ | .write _ _ _ | .read | .setAckPayload _ _ | .flushTx | .flushRx
  | .reuseTxPayload | .status | .dataAvailable | .interruptFlags | .fifoFlags
  | .clearInterruptFlags | .receivedPower | .observeTx | .dynamicPayloadsEnabled
  | .ackPayloadsEnabled | .init | .startListening | .stopListening | .teardown => .host

/-- One request on the block's port: the space it is addressed to and its bytes (R74). -/
structure Request where
  space : Space
  bytes : List Byte
deriving DecidableEq, Repr

end Sys2Proof
end

