-- ==== Sys2Proof/WellFormed.lean ====
section
/-! DEFINITION. Well-formedness of an instruction: its operands lie in the values that 30_encoding.md R75
and tables B list; an operand outside them is refused (R77). What depends on the state (the length of an
address against `dh.address_width`, R140, R142) is checked by the meaning. -/

namespace Sys2Proof

/-- Why an instruction is ill-formed (R77). -/
inductive IllFormed
  /-- A register length outside 1..5 (R94, D11). -/
  | length
  /-- Register data that are not 1 to 5 bytes (R95, D11). -/
  | dataLength
  /-- A width outside 2..5 (R127, D19). -/
  | width
  /-- An address operand that is not 1..5 bytes (R140), or 2..5 for the writing pipe (R142). -/
  | addressLength
  /-- Payload data of a bus command above 32 bytes (table B, R103, R104, R106). -/
  | payloadLength
deriving DecidableEq, Repr

/-- A register access moves 1 to 5 bytes (R44, R94, R95). -/
def okRegLen (n : Nat) : Bool := decide (1 ≤ n ∧ n ≤ 5)

/-- The reason an instruction is ill-formed, if it is (R75, R77). -/
def Instr.illFormed? : Instr → Option IllFormed
  | .cmdRRegister _ len | .readRegister _ len =>
      if okRegLen len.toNat then none else some .length
  | .cmdWRegister _ data => if okRegLen data.length then none else some .dataLength
  | .writeRegister _ (.bytes bs) => if okRegLen bs.length then none else some .dataLength
  | .writeRegister _ (.byte _) => none
  | .cmdWTxPayload data | .cmdWTxPayloadNoack data | .cmdWAckPayload _ data =>
      if data.length ≤ 32 then none else some .payloadLength
  | .setAddressWidth n => if 2 ≤ n.toNat ∧ n.toNat ≤ 5 then none else some .width
  | .openReadingPipe _ a => if okRegLen a.length then none else some .addressLength
  | .openWritingPipe a => if 2 ≤ a.length ∧ a.length ≤ 5 then none else some .addressLength
  | .cmdRRxPayload _ | .cmdRRxPlWid | .cmdFlushTx | .cmdFlushRx | .cmdReuseTxPl | .cmdActivate
  | .cmdNop | .sendCommand _ _ | .setChannel _ | .channel | .rfSetup _ _ | .datarate | .crcLength
  | .setCrcLength _ | .setRetries _ _ | .addressWidth | .closeReadingPipe _ | .write _ _ _ | .read
  | .setAckPayload _ _ | .flushTx | .flushRx | .reuseTxPayload | .status | .dataAvailable
  | .interruptFlags | .fifoFlags | .clearInterruptFlags | .receivedPower | .observeTx
  | .dynamicPayloadsEnabled | .ackPayloadsEnabled | .init | .startListening | .stopListening
  | .teardown => none

/-- An instruction is well-formed when no reason against it is found. -/
abbrev Instr.WellFormed (i : Instr) : Prop := i.illFormed? = none

end Sys2Proof
end

