-- ==== Sys2Proof/Decode.lean ====
section
/-! DEFINITION. The decoder of the request port and, after it, the encoder.
A request's first byte is the word of spec/opcode_table.json: the 6-bit `op_sel` of a host operation (R74,
R75) or the command byte of a bus command (R61 to R65, R80). The operand bytes after it are the model's own
layout, since the spec gives the operands' values and no layout (R74; log entry 3):
an operand the shorthands of R79 may leave out has a tag byte, 0 for absent, n + 1 for the value n;
a byte sequence is counted by such a tag, or is the rest of the request where it comes last. -/

namespace Sys2Proof

/-- Why a request is not an instruction (R77). -/
inductive Reject
  /-- No byte at all. -/
  | empty
  /-- An `op_sel` that is not in the table of R75. -/
  | unknownOpSel
  /-- A command byte that is in no row of the table (R80). -/
  | unknownCommand
  /-- Operand bytes are missing. -/
  | truncated
  /-- Bytes follow the last operand. -/
  | trailing
  /-- A register operand that is neither a 5-bit address nor an identifier (R23, R81). -/
  | registerAddress
  /-- A command operand that is neither an op-code nor an identifier (R81, R96). -/
  | commandId
  /-- A pipe index of 6 or more (R15, R77). -/
  | pipe
  /-- A number above 7 in a 3-bit operand (R94, R127). -/
  | threeBit
  /-- A delay or count above 15 (R126, D19). -/
  | nibble
  /-- A symbol outside the closed list of the operand (R77, R78). -/
  | symbol
  /-- The operands lie outside the values R75 lists. -/
  | illFormed (r : IllFormed)
deriving DecidableEq, Repr

/-! ## Enumerations -/

/-- The six pipes in ascending order (R15, R191 step 4). -/
def allPipes : List Pipe := [0, 1, 2, 3, 4, 5]

/-- Every register identifier of table S. -/
def allRegisters : List RegisterId :=
  [.config, .enAa, .enRxaddr, .setupAw, .setupRetr, .rfCh, .rfSetup, .status, .observeTx, .rpd]
    ++ allPipes.map .rxAddrP ++ [.txAddr] ++ allPipes.map .rxPwP ++ [.fifoStatus, .feature]

/-- Every command identifier of table B. -/
def allCommands : List CommandId :=
  [.rRegister, .wRegister, .rRxPayload, .wTxPayload, .wTxPayloadNoack, .rRxPlWid, .wAckPayload,
   .flushTx, .flushRx, .reuseTxPl, .activate, .nop]

/-! ## Operands -/

/-- A register operand: a byte below 32 is the address, and 32 + k the k-th identifier (R59, R76, R81). -/
def decRegister (b : Byte) : Except Reject RegOperand :=
  if b.toNat < 32 then .ok (.address (b.setWidth 5))
  else match allRegisters[b.toNat - 32]? with
    | some id => .ok (.named id)
    | none => .error .registerAddress

/-- A command operand: after the tag 0 an op-code, after the tag 1 the number of an identifier (R76, R81). -/
def decCommand (tag b : Byte) : Except Reject CmdOperand :=
  match tag.toNat with
  | 0 => .ok (.opcode b)
  | 1 => match allCommands[b.toNat]? with
    | some c => .ok (.named c)
    | none => .error .commandId
  | _ => .error .commandId

def decPipe (b : Byte) : Except Reject Pipe :=
  if h : b.toNat < 6 then .ok ⟨b.toNat, h⟩ else .error .pipe

def decNibble (b : Byte) : Except Reject (BitVec 4) :=
  if b.toNat < 16 then .ok (b.setWidth 4) else .error .nibble

/-- A 3-bit operand that may be left out (R79): tag 0 is `dflt`, tag n + 1 is n. -/
def decThreeBit (dflt : BitVec 3) (tag : Byte) : Except Reject (BitVec 3) :=
  if tag.toNat = 0 then .ok dflt
  else if tag.toNat ≤ 8 then .ok (BitVec.ofNat 3 (tag.toNat - 1))
  else .error .threeBit

/-- The number of bytes a tag announces: `dflt` where it is 0 (R79), else one less than the tag. -/
def tagCount (dflt : Nat) (tag : Byte) : Nat :=
  if tag.toNat = 0 then dflt else tag.toNat - 1

/-- Exactly `n` bytes are left, and they are the sequence. -/
def decCounted (n : Nat) (xs : List Byte) : Except Reject (List Byte) :=
  if xs.length < n then .error .truncated
  else if n < xs.length then .error .trailing
  else .ok xs

/-- A natural number, seven bits a byte, least significant first, bit 7 set on every byte but the last. -/
def decNat : List Byte → Except Reject (Nat × List Byte)
  | [] => .error .truncated
  | b :: bs =>
    if b.toNat < 128 then .ok (b.toNat, bs)
    else match decNat bs with
      | .error r => .error r
      | .ok (n, rest) => .ok (b.toNat - 128 + 128 * n, rest)

/-- A number of either sign, to the end of the request: a sign byte (0 for plus), then its size. -/
def decInt : List Byte → Except Reject Int
  | [] => .error .truncated
  | sgn :: bs => match decNat bs with
    | .error r => .error r
    | .ok (n, []) => .ok (if sgn.toNat = 0 then (n : Int) else -(n : Int))
    | .ok (_, _ :: _) => .error .trailing

def decDatarate (b : Byte) : DatarateArg :=
  match b.toNat with
  | 0 => .known .rate1mbps
  | 1 => .known .rate250kbps
  | 2 => .known .rate1mbps
  | 3 => .known .rate2mbps
  | _ => .other

def decPower : List Byte → Except Reject PowerArg
  | [] => .error .truncated
  | b :: bs =>
    if b.toNat = 5 then (decInt bs).map .number
    else if bs ≠ [] then .error .trailing
    else .ok (match b.toNat with
      | 0 => .level .max
      | 1 => .level .min
      | 2 => .level .low
      | 3 => .level .high
      | 4 => .level .max
      | _ => .other)

def decCrc : List Byte → Except Reject CrcArg
  | [] => .error .truncated
  | b :: bs =>
    if b.toNat = 0 then (decInt bs).map .number
    else if bs ≠ [] then .error .trailing
    else .ok (match b.toNat with
      | 1 => .crc16
      | 2 => .crc8
      | _ => .other)

def decAckMode (b : Byte) : Except Reject AckMode :=
  match b.toNat with
  | 0 => .ok .ack
  | 1 => .ok .noAck
  | _ => .error .symbol

/-- The tail of `write`: the timeout, absent or a number, and then the payload. -/
def decTimeoutPayload : List Byte → Except Reject (Option Nat × List Byte)
  | [] => .error .truncated
  | b :: bs => match b.toNat with
    | 0 => .ok (none, bs)
    | 1 => match decNat bs with
      | .error r => .error r
      | .ok (n, rest) => .ok (some n, rest)
    | _ => .error .symbol

/-! ## Operations by the shape of their operands -/

def noOperand (i : Instr) : List Byte → Except Reject Instr
  | [] => .ok i
  | _ :: _ => .error .trailing

def oneByte (f : Byte → Except Reject Instr) : List Byte → Except Reject Instr
  | [] => .error .truncated
  | [b] => f b
  | _ :: _ :: _ => .error .trailing

def twoBytes (f : Byte → Byte → Except Reject Instr) : List Byte → Except Reject Instr
  | [] | [_] => .error .truncated
  | [a, b] => f a b
  | _ :: _ :: _ :: _ => .error .trailing

def byteAndRest (f : Byte → List Byte → Except Reject Instr) : List Byte → Except Reject Instr
  | [] => .error .truncated
  | b :: bs => f b bs

/-- `write_register`'s value: tag 0 is one byte value, tag n + 1 a sequence of n bytes (R95). -/
def decRegValue : List Byte → Except Reject RegValue
  | [] => .error .truncated
  | tag :: bs =>
    if tag.toNat = 0 then match bs with
      | [] => .error .truncated
      | [b] => .ok (.byte b)
      | _ :: _ :: _ => .error .trailing
    else (decCounted (tag.toNat - 1) bs).map .bytes

/-- Host operations by `op_sel` (R75). -/
def decodeHost (op : Byte) (xs : List Byte) : Except Reject Instr :=
  match op.toNat with
  | 0x00 => twoBytes (fun a tag => (decRegister a).bind fun id =>
      (decThreeBit 1#3 tag).map (.readRegister id)) xs
  | 0x01 => byteAndRest (fun a bs => (decRegister a).bind fun id =>
      (decRegValue bs).map (.writeRegister id)) xs
  | 0x02 => byteAndRest (fun tag => twoBytes fun c n =>
      (decCommand tag c).map fun cmd => .sendCommand cmd n) xs
  | 0x08 => oneByte (fun ch => .ok (.setChannel ch)) xs
  | 0x09 => noOperand .channel xs
  | 0x0A => byteAndRest (fun d bs => (decPower bs).map (.rfSetup (decDatarate d))) xs
  | 0x0B => noOperand .datarate xs
  | 0x0C => noOperand .crcLength xs
  | 0x0D => (decCrc xs).map .setCrcLength
  | 0x0E => twoBytes (fun d c => (decNibble d).bind fun delay =>
      (decNibble c).map (.setRetries delay)) xs
  | 0x0F => oneByte (fun tag => (decThreeBit 5#3 tag).map .setAddressWidth) xs
  | 0x10 => noOperand .addressWidth xs
  | 0x18 => byteAndRest (fun p bs => (decPipe p).bind fun pipe =>
      byteAndRest (fun tag as => (decCounted (tagCount 5 tag) as).map (.openReadingPipe pipe)) bs) xs
  | 0x19 => oneByte (fun p => (decPipe p).map .closeReadingPipe) xs
  | 0x1A => byteAndRest (fun tag as => (decCounted (tagCount 5 tag) as).map .openWritingPipe) xs
  | 0x20 => byteAndRest (fun m bs => (decAckMode m).bind fun mode =>
      (decTimeoutPayload bs).map fun tp => .write tp.2 mode tp.1) xs
  | 0x21 => noOperand .read xs
  | 0x22 => byteAndRest (fun p bs => (decPipe p).map fun pipe => .setAckPayload pipe bs) xs
  | 0x23 => noOperand .flushTx xs
  | 0x24 => noOperand .flushRx xs
  | 0x25 => noOperand .reuseTxPayload xs
  | 0x28 => noOperand .status xs
  | 0x29 => noOperand .dataAvailable xs
  | 0x2A => noOperand .interruptFlags xs
  | 0x2B => noOperand .fifoFlags xs
  | 0x2C => noOperand .clearInterruptFlags xs
  | 0x2D => noOperand .receivedPower xs
  | 0x2E => noOperand .observeTx xs
  | 0x2F => noOperand .dynamicPayloadsEnabled xs
  | 0x30 => noOperand .ackPayloadsEnabled xs
  | 0x38 => noOperand .init xs
  | 0x39 => noOperand .startListening xs
  | 0x3A => noOperand .stopListening xs
  | 0x3B => noOperand .teardown xs
  | _ => .error .unknownOpSel

/-- Bus commands by command byte, format REG first, then PIPE and FIXED (R61 to R65, table B). -/
def decodeBus (c : Byte) (xs : List Byte) : Except Reject Instr :=
  if c.toNat < 0x20 then
    oneByte (fun tag => (decThreeBit 1#3 tag).map (.cmdRRegister (c.setWidth 5))) xs
  else if c.toNat < 0x40 then
    byteAndRest (fun tag ds =>
      (decCounted (tagCount 1 tag) ds).map (.cmdWRegister (c.setWidth 5))) xs
  else if c.toNat / 8 = 0x15 then
    (decPipe (c &&& 7#8)).map fun pipe => .cmdWAckPayload pipe xs
  else match c.toNat with
    | 0x50 => noOperand .cmdActivate xs
    | 0x60 => noOperand .cmdRRxPlWid xs
    | 0x61 => oneByte (fun n => .ok (.cmdRRxPayload n)) xs
    | 0xA0 => .ok (.cmdWTxPayload xs)
    | 0xB0 => .ok (.cmdWTxPayloadNoack xs)
    | 0xE1 => noOperand .cmdFlushTx xs
    | 0xE2 => noOperand .cmdFlushRx xs
    | 0xE3 => noOperand .cmdReuseTxPl xs
    | 0xFF => noOperand .cmdNop xs
    | _ => .error .unknownCommand

/-- An instruction whose operands R75 does not list is refused, not decoded (R77). -/
def checkWellFormed (i : Instr) : Except Reject Instr :=
  match i.illFormed? with
  | some r => .error (.illFormed r)
  | none => .ok i

/-- The instruction a request asks for, or the reason why it asks for none. -/
def decode (rq : Request) : Except Reject Instr :=
  match rq.bytes with
  | [] => .error .empty
  | b :: xs => match rq.space with
    | .host => (decodeHost b xs).bind checkWellFormed
    | .bus => (decodeBus b xs).bind checkWellFormed

/-! ## The encoder -/

/-- Least significant seven bits first; `fuel` bounds the number of bytes and the number itself is enough. -/
def encNatFuel : Nat → Nat → List Byte
  | 0, n => [BitVec.ofNat 8 n]
  | fuel + 1, n =>
    if n < 128 then [BitVec.ofNat 8 n]
    else BitVec.ofNat 8 (n % 128 + 128) :: encNatFuel fuel (n / 128)

def encNat (n : Nat) : List Byte := encNatFuel n n

def encInt (z : Int) : List Byte :=
  (if z < 0 then 1#8 else 0#8) :: encNat z.natAbs

def encDatarate : DatarateArg → Byte
  | .known .rate250kbps => 1#8
  | .known .rate1mbps => 2#8
  | .known .rate2mbps => 3#8
  | .other => 4#8

def encPower : PowerArg → List Byte
  | .level .min => [1#8]
  | .level .low => [2#8]
  | .level .high => [3#8]
  | .level .max => [4#8]
  | .number z => 5#8 :: encInt z
  | .other => [6#8]

def encCrc : CrcArg → List Byte
  | .number z => 0#8 :: encInt z
  | .crc16 => [1#8]
  | .crc8 => [2#8]
  | .other => [3#8]

def encAckMode : AckMode → Byte
  | .ack => 0#8
  | .noAck => 1#8

def encTimeout : Option Nat → List Byte
  | none => [0#8]
  | some n => 1#8 :: encNat n

/-- A byte sequence counted by its tag. -/
def encCounted (bs : List Byte) : List Byte := BitVec.ofNat 8 (bs.length + 1) :: bs

def encRegValue : RegValue → List Byte
  | .byte b => [0#8, b]
  | .bytes bs => encCounted bs

def encRegister : RegOperand → Byte
  | .address a => a.setWidth 8
  | .named id => BitVec.ofNat 8 (32 + allRegisters.idxOf id)

def encCommand : CmdOperand → List Byte
  | .opcode b => [0#8, b]
  | .named c => [1#8, BitVec.ofNat 8 (allCommands.idxOf c)]

def encThreeBit (n : BitVec 3) : Byte := BitVec.ofNat 8 (n.toNat + 1)

def encPipe (p : Pipe) : Byte := BitVec.ofNat 8 p.val

/-- The bytes of a request for an instruction: the word of the opcode table, then the operands. -/
def Instr.bytes : Instr → List Byte
  | .cmdRRegister addr len => [addr.setWidth 8, encThreeBit len]
  | .cmdWRegister addr data => (0x20#8 ||| addr.setWidth 8) :: encCounted data
  | .cmdRRxPayload n => [0x61#8, n]
  | .cmdWTxPayload data => 0xA0#8 :: data
  | .cmdWTxPayloadNoack data => 0xB0#8 :: data
  | .cmdRRxPlWid => [0x60#8]
  | .cmdWAckPayload pipe data => (0xA8#8 ||| encPipe pipe) :: data
  | .cmdFlushTx => [0xE1#8]
  | .cmdFlushRx => [0xE2#8]
  | .cmdReuseTxPl => [0xE3#8]
  | .cmdActivate => [0x50#8]
  | .cmdNop => [0xFF#8]
  | .readRegister id length => [0x00#8, encRegister id, encThreeBit length]
  | .writeRegister id value => 0x01#8 :: encRegister id :: encRegValue value
  | .sendCommand cmd n => 0x02#8 :: (encCommand cmd ++ [n])
  | .setChannel ch => [0x08#8, ch]
  | .channel => [0x09#8]
  | .rfSetup d p => 0x0A#8 :: encDatarate d :: encPower p
  | .datarate => [0x0B#8]
  | .crcLength => [0x0C#8]
  | .setCrcLength len => 0x0D#8 :: encCrc len
  | .setRetries delay count => [0x0E#8, delay.setWidth 8, count.setWidth 8]
  | .setAddressWidth n => [0x0F#8, encThreeBit n]
  | .addressWidth => [0x10#8]
  | .openReadingPipe pipe a => 0x18#8 :: encPipe pipe :: encCounted a
  | .closeReadingPipe pipe => [0x19#8, encPipe pipe]
  | .openWritingPipe a => 0x1A#8 :: encCounted a
  | .write payload mode timeout => 0x20#8 :: encAckMode mode :: (encTimeout timeout ++ payload)
  | .read => [0x21#8]
  | .setAckPayload pipe payload => 0x22#8 :: encPipe pipe :: payload
  | .flushTx => [0x23#8]
  | .flushRx => [0x24#8]
  | .reuseTxPayload => [0x25#8]
  | .status => [0x28#8]
  | .dataAvailable => [0x29#8]
  | .interruptFlags => [0x2A#8]
  | .fifoFlags => [0x2B#8]
  | .clearInterruptFlags => [0x2C#8]
  | .receivedPower => [0x2D#8]
  | .observeTx => [0x2E#8]
  | .dynamicPayloadsEnabled => [0x2F#8]
  | .ackPayloadsEnabled => [0x30#8]
  | .init => [0x38#8]
  | .startListening => [0x39#8]
  | .stopListening => [0x3A#8]
  | .teardown => [0x3B#8]

/-- The request that asks for an instruction. -/
def encode (i : Instr) : Request := ⟨i.space, i.bytes⟩

/-! ## The opcode table -/

/-- A row of spec/opcode_table.json: its word is every byte `w` with `w &&& mask = word`. -/
structure OpcodeRow where
  mnemonic : String
  space : Space
  mask : Byte
  word : Byte
deriving DecidableEq, Repr

def busRows : List OpcodeRow :=
  [⟨"R_REGISTER", .bus, 0xE0#8, 0x00#8⟩,
   ⟨"W_REGISTER", .bus, 0xE0#8, 0x20#8⟩,
   ⟨"R_RX_PAYLOAD", .bus, 0xFF#8, 0x61#8⟩,
   ⟨"W_TX_PAYLOAD", .bus, 0xFF#8, 0xA0#8⟩,
   ⟨"W_TX_PAYLOAD_NOACK", .bus, 0xFF#8, 0xB0#8⟩,
   ⟨"R_RX_PL_WID", .bus, 0xFF#8, 0x60#8⟩,
   ⟨"W_ACK_PAYLOAD", .bus, 0xF8#8, 0xA8#8⟩,
   ⟨"FLUSH_TX", .bus, 0xFF#8, 0xE1#8⟩,
   ⟨"FLUSH_RX", .bus, 0xFF#8, 0xE2#8⟩,
   ⟨"REUSE_TX_PL", .bus, 0xFF#8, 0xE3#8⟩,
   ⟨"ACTIVATE", .bus, 0xFF#8, 0x50#8⟩,
   ⟨"NOP", .bus, 0xFF#8, 0xFF#8⟩]

def hostRowsA : List OpcodeRow :=
  [⟨"read_register", .host, 0x3F#8, 0x00#8⟩,
   ⟨"write_register", .host, 0x3F#8, 0x01#8⟩,
   ⟨"send_command", .host, 0x3F#8, 0x02#8⟩,
   ⟨"set_channel", .host, 0x3F#8, 0x08#8⟩,
   ⟨"channel", .host, 0x3F#8, 0x09#8⟩,
   ⟨"rf_setup", .host, 0x3F#8, 0x0A#8⟩,
   ⟨"datarate", .host, 0x3F#8, 0x0B#8⟩,
   ⟨"crc_length", .host, 0x3F#8, 0x0C#8⟩,
   ⟨"set_crc_length", .host, 0x3F#8, 0x0D#8⟩,
   ⟨"set_retries", .host, 0x3F#8, 0x0E#8⟩,
   ⟨"set_address_width", .host, 0x3F#8, 0x0F#8⟩,
   ⟨"address_width", .host, 0x3F#8, 0x10#8⟩,
   ⟨"open_reading_pipe", .host, 0x3F#8, 0x18#8⟩,
   ⟨"close_reading_pipe", .host, 0x3F#8, 0x19#8⟩,
   ⟨"open_writing_pipe", .host, 0x3F#8, 0x1A#8⟩,
   ⟨"write", .host, 0x3F#8, 0x20#8⟩,
   ⟨"read", .host, 0x3F#8, 0x21#8⟩]

def hostRowsB : List OpcodeRow :=
  [⟨"set_ack_payload", .host, 0x3F#8, 0x22#8⟩,
   ⟨"flush_tx", .host, 0x3F#8, 0x23#8⟩,
   ⟨"flush_rx", .host, 0x3F#8, 0x24#8⟩,
   ⟨"reuse_tx_payload", .host, 0x3F#8, 0x25#8⟩,
   ⟨"status", .host, 0x3F#8, 0x28#8⟩,
   ⟨"data_available?", .host, 0x3F#8, 0x29#8⟩,
   ⟨"interrupt_flags", .host, 0x3F#8, 0x2A#8⟩,
   ⟨"fifo_flags", .host, 0x3F#8, 0x2B#8⟩,
   ⟨"clear_interrupt_flags", .host, 0x3F#8, 0x2C#8⟩,
   ⟨"received_power", .host, 0x3F#8, 0x2D#8⟩,
   ⟨"observe_tx", .host, 0x3F#8, 0x2E#8⟩,
   ⟨"dynamic_payloads_enabled?", .host, 0x3F#8, 0x2F#8⟩,
   ⟨"ack_payloads_enabled?", .host, 0x3F#8, 0x30#8⟩,
   ⟨"init", .host, 0x3F#8, 0x38#8⟩,
   ⟨"start_listening", .host, 0x3F#8, 0x39#8⟩,
   ⟨"stop_listening", .host, 0x3F#8, 0x3A#8⟩,
   ⟨"teardown", .host, 0x3F#8, 0x3B#8⟩]

/-- The opcode table, its bus rows and its host rows. -/
def opcodeRows : List OpcodeRow := busRows ++ hostRowsA ++ hostRowsB

/-- Two rows of one space share no word. -/
def OpcodeRow.disjoint (r q : OpcodeRow) : Bool :=
  r.space != q.space || (r.mask &&& q.mask &&& (r.word ^^^ q.word)) != 0#8

/-- The mnemonic of an instruction's row in spec/opcode_table.json. -/
def Instr.mnemonic : Instr → String
  | .cmdRRegister _ _ => "R_REGISTER"
  | .cmdWRegister _ _ => "W_REGISTER"
  | .cmdRRxPayload _ => "R_RX_PAYLOAD"
  | .cmdWTxPayload _ => "W_TX_PAYLOAD"
  | .cmdWTxPayloadNoack _ => "W_TX_PAYLOAD_NOACK"
  | .cmdRRxPlWid => "R_RX_PL_WID"
  | .cmdWAckPayload _ _ => "W_ACK_PAYLOAD"
  | .cmdFlushTx => "FLUSH_TX"
  | .cmdFlushRx => "FLUSH_RX"
  | .cmdReuseTxPl => "REUSE_TX_PL"
  | .cmdActivate => "ACTIVATE"
  | .cmdNop => "NOP"
  | .readRegister _ _ => "read_register"
  | .writeRegister _ _ => "write_register"
  | .sendCommand _ _ => "send_command"
  | .setChannel _ => "set_channel"
  | .channel => "channel"
  | .rfSetup _ _ => "rf_setup"
  | .datarate => "datarate"
  | .crcLength => "crc_length"
  | .setCrcLength _ => "set_crc_length"
  | .setRetries _ _ => "set_retries"
  | .setAddressWidth _ => "set_address_width"
  | .addressWidth => "address_width"
  | .openReadingPipe _ _ => "open_reading_pipe"
  | .closeReadingPipe _ => "close_reading_pipe"
  | .openWritingPipe _ => "open_writing_pipe"
  | .write _ _ _ => "write"
  | .read => "read"
  | .setAckPayload _ _ => "set_ack_payload"
  | .flushTx => "flush_tx"
  | .flushRx => "flush_rx"
  | .reuseTxPayload => "reuse_tx_payload"
  | .status => "status"
  | .dataAvailable => "data_available?"
  | .interruptFlags => "interrupt_flags"
  | .fifoFlags => "fifo_flags"
  | .clearInterruptFlags => "clear_interrupt_flags"
  | .receivedPower => "received_power"
  | .observeTx => "observe_tx"
  | .dynamicPayloadsEnabled => "dynamic_payloads_enabled?"
  | .ackPayloadsEnabled => "ack_payloads_enabled?"
  | .init => "init"
  | .startListening => "start_listening"
  | .stopListening => "stop_listening"
  | .teardown => "teardown"

/-! ## Table words -/

/-- The bytes of a word of `nbits` bits, the first byte its least significant. -/
def wordBytes (nbits w : Nat) : List Byte :=
  (List.range (max 1 ((nbits + 7) / 8))).map fun i => BitVec.ofNat 8 (w >>> (8 * i))

/-- The space a table word belongs to. The host operations' six bits and the command bytes overlap: a word
that is a listed `op_sel` is a host operation, and any other word of eight bits a command byte (log entry 4). -/
def tableSpace (nbits w : Nat) : Space :=
  if nbits ≤ 6 ∨ (hostRowsA ++ hostRowsB).any (fun r => r.word.toNat = w) then .host else .bus

/-- The request a table word stands for: the word and then as few zero operand bytes as the decoder asks
for, at most eight. -/
def tableRequest (nbits w : Nat) : Request :=
  let rq (k : Nat) : Request := ⟨tableSpace nbits w, wordBytes nbits w ++ List.replicate k 0#8⟩
  match (List.range 9).find? (fun k => (decode (rq k)).toBool) with
  | some k => rq k
  | none => rq 0

/-- The instruction the decoder reads from a table word. -/
def decodeTableWord (nbits w : Nat) : Option Instr := (decode (tableRequest nbits w)).toOption

end Sys2Proof
end

