-- ==== Sys2Proof/Machine/RegisterMap.lean ====
section
/-! DEFINITION. The Register Map (R23, R81): the literals the source states, the defaults of the parameter
record (00_scope.md table P, 93_implementation_defined.md K1 to K8; log entries 5 and 6), and the two
bidirectional maps from identifiers to numbers. -/

namespace Sys2Proof

/-- Table P with its defaults; the three opaque identities and the timeout default have none (R5, D30). -/
def Params.defaults : Params where
  enableLineId := Config.enableLineId
  chipSelectId := Config.chipSelectId
  transport := Config.transport
  staticPayloadSizeReq := 32
  initialChannel := 76#8
  timeoutDefault := Config.timeoutDefault
  aEnAa := 0x01#5
  aEnRxaddr := 0x02#5
  aSetupAw := 0x03#5
  aSetupRetr := 0x04#5
  aRfCh := 0x05#5
  aRfSetup := 0x06#5
  aStatus := 0x07#5
  aObserveTx := 0x08#5
  aRpd := 0x09#5
  aRxAddrP := #v[0x0A#5, 0x0B#5, 0x0C#5, 0x0D#5, 0x0E#5, 0x0F#5]
  aTxAddr := 0x10#5
  aRxPwP := #v[0x11#5, 0x12#5, 0x13#5, 0x14#5, 0x15#5, 0x16#5]
  aFifoStatus := 0x17#5
  cWTxPayload := 0xA0#8
  cWTxPayloadNoack := 0xB0#8
  cRRxPlWid := 0x60#8
  cWAckPayload := 0xA8#8
  cReuseTxPl := 0xE3#8
  activateArg := [0x73#8]
  bEnCrc := 3
  bCrco := 2
  bPwrUp := 1
  bPrimRx := 0
  bEnDpl := 2
  bEnAckPay := 1
  bFsRxEmpty := 0
  bFsRxFull := 1
  bFsTxEmpty := 4
  bFsTxFull := 5
  plosCnt := ⟨7, 4⟩
  arcCnt := ⟨3, 0⟩
  pwrMin := 0#2
  pwrLow := 1#2
  pwrHigh := 2#2
  pwrMax := 3#2

namespace Machine

/-- The address of a register (R23, R81; CONFIG and FEATURE are sourced, R59). -/
def addressOf (P : Params) : RegisterId → RegAddr
  | .config => 0x00#5
  | .enAa => P.aEnAa
  | .enRxaddr => P.aEnRxaddr
  | .setupAw => P.aSetupAw
  | .setupRetr => P.aSetupRetr
  | .rfCh => P.aRfCh
  | .rfSetup => P.aRfSetup
  | .status => P.aStatus
  | .observeTx => P.aObserveTx
  | .rpd => P.aRpd
  | .rxAddrP p => P.aRxAddrP[p]
  | .txAddr => P.aTxAddr
  | .rxPwP p => P.aRxPwP[p]
  | .fifoStatus => P.aFifoStatus
  | .feature => 0x1D#5

/-- The op-code of a command, the base where an operand is ORed in (R62 to R65). -/
def opcodeOf (P : Params) : CommandId → Byte
  | .rRegister => 0x00#8
  | .wRegister => 0x20#8
  | .rRxPayload => 0x61#8
  | .wTxPayload => P.cWTxPayload
  | .wTxPayloadNoack => P.cWTxPayloadNoack
  | .rRxPlWid => P.cRRxPlWid
  | .wAckPayload => P.cWAckPayload
  | .flushTx => 0xE1#8
  | .flushRx => 0xE2#8
  | .reuseTxPl => P.cReuseTxPl
  | .activate => 0x50#8
  | .nop => 0xFF#8

/-- The register at an address, the map read the other way (R23: bidirectional). -/
def registerAt (P : Params) (a : RegAddr) : Option RegisterId :=
  allRegisters.find? fun id => addressOf P id == a

/-- The command of an op-code, the map read the other way. -/
def commandAt (P : Params) (c : Byte) : Option CommandId :=
  allCommands.find? fun id => opcodeOf P id == c

/-- The constraints on a parameter record: different registers have different addresses and different
commands different op-codes, an operand ORed in finds zero bits (R6 (i) to (iii)), and the four CONFIG bits
have four numbers (R24). -/
def admissible (P : Params) : Bool :=
  decide ((allRegisters.map (addressOf P)).Nodup)
    && decide ((allCommands.map (opcodeOf P)).Nodup)
    && (P.cWAckPayload &&& 7#8 == 0#8)
    && decide ([P.bEnCrc, P.bCrco, P.bPwrUp, P.bPrimRx].Nodup)

/-- The command byte of format REG: the operation with the 5-bit address ORed in (R61 to R63). The type of
the address is the mask 0x1F of the rules. -/
def regCommand (op : Byte) (a : RegAddr) : Byte := op ||| a.setWidth 8

/-- The command byte of format PIPE (R61, R64). -/
def pipeCommand (base : Byte) (p : Pipe) : Byte := base ||| BitVec.ofNat 8 p.val

/-- The 2-bit code of a power level (R67, table P row PWR_CODE). -/
def powerCode (P : Params) : PowerLevel → BitVec 2
  | .min => P.pwrMin
  | .low => P.pwrLow
  | .high => P.pwrHigh
  | .max => P.pwrMax

end Machine
end Sys2Proof
end

