-- ==== Sys2Proof/Machine/Flags.lean ====
section
/-! DEFINITION. Every flag and field the block takes out of a byte it has read (R8, R20, R21, R22,
44_status_diagnostics.md, R123, R124). No flag is state of the block (R22). -/

namespace Sys2Proof.Machine

/-- Bit `k` of a byte (R8). -/
def bitOf (v : Byte) (k : BitNo) : Bool := v.getLsbD k.val

/-- The unsigned value of bits `hi` to `lo` of a byte (R8). -/
def fieldOf (v : Byte) (f : BitField) : Nat :=
  (v.toNat >>> f.lo.val) &&& (2 ^ (f.hi.val - f.lo.val + 1) - 1)

/-- The mask of one bit. -/
def bitMask (k : BitNo) : Byte := 1#8 <<< k.val

/-! ## STATUS (R20) -/

def bRxDr : BitNo := 6
def bTxDs : BitNo := 5
def bMaxRt : BitNo := 4
def bTxFull : BitNo := 0

/-- RX_P_NO: 0 to 5 a pipe, 6 unused, 7 receive FIFO empty (R20). -/
def rxPNo (status : Byte) : Nat := fieldOf status ⟨3, 1⟩

/-- A set of interrupt flags (R172). -/
structure InterruptFlags where
  rxDr : Bool
  txDs : Bool
  maxRt : Bool
deriving DecidableEq, Repr

/-- A set of FIFO flags (R21, R173). -/
structure FifoFlags where
  rxEmpty : Bool
  rxFull : Bool
  txEmpty : Bool
  txFull : Bool
deriving DecidableEq, Repr

/-- The demultiplexer: one status byte in, three independent flags out (R172). -/
def interruptFlagsOf (status : Byte) : InterruptFlags :=
  ⟨bitOf status bRxDr, bitOf status bTxDs, bitOf status bMaxRt⟩

def fifoFlagsOf (P : Params) (v : Byte) : FifoFlags :=
  ⟨bitOf v P.bFsRxEmpty, bitOf v P.bFsRxFull, bitOf v P.bFsTxEmpty, bitOf v P.bFsTxFull⟩

/-- The datarate an RF_SETUP byte says, bit 5 before bit 3 (R123). -/
def datarateOf (v : Byte) : Datarate :=
  if bitOf v 5 then .rate250kbps else if bitOf v 3 then .rate2mbps else .rate1mbps

/-- The CRC mode that CONFIG and the auto-ack register say (R124). -/
def crcModeOf (P : Params) (config enAa : Byte) : CrcMode :=
  if bitOf config P.bEnCrc || (enAa &&& 0x3F#8 != 0#8) then
    if bitOf config P.bCrco then .crc16 else .crc8
  else .none

/-- The lost-packet and retransmit counters (R176). -/
def countersOf (P : Params) (v : Byte) : Nat × Nat := (fieldOf v P.plosCnt, fieldOf v P.arcCnt)

end Sys2Proof.Machine
end

