-- ==== Sys2Proof/Machine/Operands.lean ====
section
/-! DEFINITION. Operand assembly: every byte the block composes from operands (30_encoding.md R67 to R73)
and the reading of symbolic operands (R78, R122, R125). -/

namespace Sys2Proof.Machine

/-- The datarate bits of RF_SETUP (R67). -/
def drBits : Datarate → Byte
  | .rate250kbps => bitMask 5
  | .rate1mbps => 0#8
  | .rate2mbps => bitMask 3

/-- The RF_SETUP byte, bits 7, 6, 4 and 0 zero (R67). -/
def rfSetupValue (P : Params) (d : Datarate) (p : PowerLevel) : Byte :=
  drBits d ||| ((powerCode P p).setWidth 8 <<< 1)

/-- The datarate a symbol names, if it is one of the three (R78, R122). -/
def datarateSymbol : DatarateArg → Option Datarate
  | .known d => some d
  | .other => none

/-- The level a power operand names, by symbol or by number (R78, R122). -/
def powerSymbol : PowerArg → Option PowerLevel
  | .level p => some p
  | .number z =>
    if z = -18 then some .min
    else if z = -12 then some .low
    else if z = -6 then some .high
    else if z = 0 then some .max
    else none
  | .other => none

/-- The mode `set_crc_length` sets: 16, 2 and `:crc_16`; 8, 1 and `:crc_8`; anything else disables (R125). -/
def crcSymbol : CrcArg → CrcMode
  | .number n =>
    if n = 16 ∨ n = 2 then .crc16 else if n = 8 ∨ n = 1 then .crc8 else .none
  | .crc16 => .crc16
  | .crc8 => .crc8
  | .other => .none

/-- CONFIG with the CRC bits replaced, its other six bits as read (R125). -/
def withCrc (P : Params) (m : CrcMode) (config : Byte) : Byte :=
  let cleared := config &&& ~~~(bitMask P.bEnCrc ||| bitMask P.bCrco)
  match m with
  | .crc16 => cleared ||| bitMask P.bEnCrc ||| bitMask P.bCrco
  | .crc8 => cleared ||| bitMask P.bEnCrc
  | .none => cleared

/-- The SETUP_RETR byte (R68). -/
def setupRetrValue (delay count : BitVec 4) : Byte :=
  (delay.setWidth 8 <<< 4) ||| count.setWidth 8

/-- The address width code, with the floored remainder of R8 (R69). -/
def setupAwCode (n : Nat) : Nat := (((n : Int) - 2) % 4).toNat

/-- The CONFIG byte `init` writes (R70). -/
def configInit (P : Params) : Byte :=
  bitMask P.bEnCrc ||| bitMask P.bCrco ||| bitMask P.bPwrUp ||| bitMask P.bPrimRx

/-- The mask of a pipe (R71). -/
def pipeMask (p : Pipe) : Byte := 1#8 <<< p.val

/-- All six pipes (R71). -/
def allPipesMask : Byte := 0x3F#8

/-- The three interrupt flags, for a write-1-to-clear (R72). -/
def clearAllFlags : Byte := bitMask bRxDr ||| bitMask bTxDs ||| bitMask bMaxRt

/-- MAX_RT alone (R72). -/
def clearMaxRt : Byte := bitMask bMaxRt

/-- The payload and then zero bytes up to the static size (R73). -/
def padTo (size : Nat) (payload : List Byte) : List Byte :=
  payload ++ List.replicate (size - payload.length) 0#8

/-- The address of a register operand: an identifier is replaced by its number before anything else (R81). -/
def registerNumber (P : Params) : RegOperand → RegAddr
  | .named id => addressOf P id
  | .address a => a

/-- The op-code of a command operand: an identifier is replaced by its number (R81, R96). -/
def commandNumber (P : Params) : CmdOperand → Byte
  | .named c => opcodeOf P c
  | .opcode b => b

/-- The byte sequence of a `write_register` value: a single value v is [v] (R95). -/
def regData : RegValue → List Byte
  | .byte b => [b]
  | .bytes bs => bs

/-- The static payload size: the requested one, at most 32 (R11). -/
def clampedSize (P : Params) : Nat := (min P.staticPayloadSizeReq 32).toNat

end Sys2Proof.Machine
end

