-- ==== Sys2Proof/Machine/State.lean ====
section
/-! DEFINITION. The state of the block as plain data (10_state.md), with what the model adds to it: the
request port, the response, the emitted events and the environment's answers. -/

namespace Sys2Proof.Machine

/-- Lifecycle state (R17). -/
inductive Life
  | uninitialized | standby | listening | transmitting | tornDown
deriving DecidableEq, Repr

/-- Every operation but `init` is refused in the two other states (R17). -/
def Life.initialised : Life → Bool
  | .standby | .listening | .transmitting => true
  | .uninitialized | .tornDown => false

/-- Transmit state (R18). -/
inductive TxFsm
  | idle | pollFifo | write | pulseEnable
deriving DecidableEq, Repr

/-- What the block last told the transport about chip-select (R19). -/
inductive Csn
  | released | asserted
deriving DecidableEq, Repr

/-- What the block last told the transport about the enable line (R19). -/
inductive Ce
  | low | high
deriving DecidableEq, Repr

/-- The DeviceHandle (R10 to R14). -/
structure DeviceHandle where
  /-- R11. -/
  staticPayloadSize : Nat
  /-- R12. -/
  addressWidth : Nat
  /-- R13. -/
  pipe0ReadingAddress : Option (List Byte)
  /-- R14: opaque, never computed with. -/
  enablePin : Nat
  /-- R14: opaque, never computed with. -/
  chipSelect : Nat
deriving DecidableEq, Repr

/-- A transport event (R91). -/
inductive Event
  | csAssert | csRelease | ceHigh | ceLow
  | tx (b : Byte)
  | rx (b : Byte)
deriving DecidableEq, Repr

/-- The result of an operation that ended with kind Ok (R75, R216). -/
inductive Value
  /-- Result none. -/
  | nothing
  /-- The `:ok` of `write` (R150). -/
  | okSymbol
  | byte (b : Byte)
  | bytes (bs : List Byte)
  | datarate (d : Datarate)
  | crc (m : CrcMode)
  | width (n : Nat)
  /-- The pipe of `data_available?`, distinct from false (R171). -/
  | pipe (n : Nat)
  /-- The false-like value of `data_available?` (R171). -/
  | notAvailable
  | interrupts (f : InterruptFlags)
  | fifo (f : FifoFlags)
  | boolean (b : Bool)
  | counters (lost retransmits : Nat)
deriving DecidableEq, Repr

/-- The response on the host port: a result kind with what it records (R74, R210, R216). -/
inductive Response
  | ok (v : Value)
  /-- R211: records the offered length and the limit that applied. -/
  | oversizedPayload (offered limit : Nat)
  /-- R212. -/
  | transmitTimeout
  /-- R213. -/
  | maxRetransmitsReached
  /-- R214: records what the transport reported, unchanged. -/
  | transportFailure (report : Nat)
  /-- R215. -/
  | configRejected
deriving DecidableEq, Repr

/-- The code of a result kind (R216). -/
def Response.code : Response → Nat
  | .ok _ => 0
  | .oversizedPayload _ _ => 1
  | .transmitTimeout => 2
  | .maxRetransmitsReached => 3
  | .transportFailure _ => 4
  | .configRejected => 5

/-- The three raised kinds; the others are returned (R210, R216). -/
inductive Error
  | oversizedPayload (offered limit : Nat)
  | transmitTimeout
  | transportFailure (report : Nat)
deriving DecidableEq, Repr

/-- A `write` that polls a full FIFO: its operands and the start time it sampled (R37 (b), R151). -/
structure PendingWrite where
  payload : List Byte
  ackMode : AckMode
  timeout : Nat
  t0 : Nat
deriving DecidableEq, Repr

/-- The environment as the block meets it: what the transport and the clock answer. A script fixes the first
answers of each kind; every later one is a free value of Config (R46, R92, R226; log entry 1). The counters
are the model's own, one for each kind of draw. -/
structure Env where
  ioScript : List IoAnswer
  rxScript : List Byte
  tickScript : List Nat
  ioCount : Nat
  rxCount : Nat
  tickCount : Nat
  /-- The last reading of the clock (R226). -/
  now : Nat
deriving DecidableEq, Repr

/-- The state of the block. -/
structure State where
  /-- R10. -/
  dh : DeviceHandle
  /-- R17. -/
  life : Life
  /-- R18. -/
  txFsm : TxFsm
  /-- R19. -/
  csn : Csn
  /-- R19. -/
  ce : Ce
  /-- R37 (b): the running `write`, while it polls. -/
  running : Option PendingWrite
  /-- R5, R6: the parameter record, written by no operation. -/
  params : Params
  /-- R74: requests to come, oldest first. -/
  port : List Request
  /-- R74: the response of the last operation; absent while one is running. -/
  response : Option Response
  /-- R91, R47: every event emitted so far, oldest first. -/
  trace : List Event
  /-- R46, R92, R226: the environment. -/
  env : Env
deriving DecidableEq, Repr

/-- The block has no fault outcome (93_implementation_defined.md, opening: fault and stuck are not used by
this block; its errors are ordinary results, R216). -/
inductive Fault
deriving DecidableEq, Repr

/-- Why a request has no meaning (R217). All are raised before the request has any effect, but for
`rxPNoUnused`; all are safe: the model stops where the source says nothing of the block. -/
inductive Refusal
  /-- Raised by an arm of `exec` that has no meaning yet. Safe. -/
  | notModelled (mnemonic : String)
  /-- Raised by `step` where the bytes on the port are no instruction (R77). Safe. -/
  | undecodable (r : Reject)
  /-- Raised by every operation whose operands lie outside R75 (R77). Safe. -/
  | illFormed (r : IllFormed)
  /-- Raised by every host operation but `init` before `init` and after `teardown` (R17, R217, R241). Safe. -/
  | notInitialised
  /-- Raised by every operation that is asked for while a `write` is running (R229, D44). Safe. -/
  | operationRunning
  /-- Raised by `init` and `teardown` where STATIC_PAYLOAD_SIZE_REQ is below 1 (R11, D31). Safe. -/
  | staticSizeBelowOne
  /-- Raised by the pipe operations where a full address is not `dh.address_width` bytes (R140, R142). Safe. -/
  | addressLength
  /-- Raised by `data_available?` where RX_P_NO reads 6, unused (R171, U2). Safe. -/
  | rxPNoUnused
deriving DecidableEq, Repr

/-- The block after reset, before `init` (R38, R240). `static_payload_size` and `address_width` have no
reset value in the spec; the zeros are the model's (log entry 7). -/
def State.reset : State where
  dh := { staticPayloadSize := 0
          addressWidth := 0
          pipe0ReadingAddress := none
          enablePin := Params.defaults.enableLineId
          chipSelect := Params.defaults.chipSelectId }
  life := .uninitialized
  txFsm := .idle
  csn := .released
  ce := .low
  running := none
  params := Params.defaults
  port := []
  response := none
  trace := []
  env := { ioScript := [], rxScript := [], tickScript := []
           ioCount := 0, rxCount := 0, tickCount := 0, now := 0 }

end Sys2Proof.Machine
end

