-- ==== Sys2Proof/Machine/Ops.lean ====
section
/-! DEFINITION. The shared operations: the transport primitives, the chip-select scope, register and
command transactions, the bit helpers, how an operation is accepted, ends, and is raised out of. -/

namespace Sys2Proof.Machine

/-! ## Sequencing -/

/-- How a piece of an operation ends: with a value, or raised (R210, R218). -/
inductive Ended (α : Type)
  | done (a : α) (s : State)
  | raised (e : Error) (s : State)
deriving DecidableEq, Repr

/-- Go on after a piece that is done; a raise ends the whole (R112, R214, R218). -/
def Ended.andThen {α β : Type} (r : Ended α) (f : α → State → Ended β) : Ended β :=
  match r with
  | .done a s => f a s
  | .raised e s => .raised e s

/-- Replace the value of a piece that is done. -/
def Ended.map {α β : Type} (g : α → β) (r : Ended α) : Ended β :=
  match r with
  | .done a s => .done (g a) s
  | .raised e s => .raised e s

/-- The state a piece ends in. -/
def Ended.state {α : Type} : Ended α → State
  | .done _ s => s
  | .raised _ s => s

/-! ## Updates of the state -/

/-- Emit transport events, in order (R91). -/
def State.emit (es : List Event) (s : State) : State := { s with trace := s.trace ++ es }

/-- R92: chip-select asserted. -/
def State.assertCs (s : State) : State := { s.emit [.csAssert] with csn := .asserted }

/-- R92: chip-select released. -/
def State.releaseCs (s : State) : State := { s.emit [.csRelease] with csn := .released }

/-- `CE <- 1` (R9, R90). -/
def State.raiseEnable (s : State) : State := { s.emit [.ceHigh] with ce := .high }

/-- `CE <- 0` (R9, R90). -/
def State.dropEnable (s : State) : State := { s.emit [.ceLow] with ce := .low }

def State.setLife (l : Life) (s : State) : State := { s with life := l }

def State.setTxFsm (f : TxFsm) (s : State) : State := { s with txFsm := f }

def State.setRunning (w : Option PendingWrite) (s : State) : State := { s with running := w }

def State.setStaticPayloadSize (n : Nat) (s : State) : State :=
  { s with dh := { s.dh with staticPayloadSize := n } }

def State.setAddressWidth (n : Nat) (s : State) : State :=
  { s with dh := { s.dh with addressWidth := n } }

def State.setPipe0Address (a : Option (List Byte)) (s : State) : State :=
  { s with dh := { s.dh with pipe0ReadingAddress := a } }

/-! ## Draws of the environment -/

/-- The k-th answer of the transport: scripted, else free (R92, R214). -/
def Env.io (e : Env) (k : Nat) : IoAnswer := e.ioScript.getD k (Config.freeIo k)

/-- The k-th byte read from the bus: scripted, else free (R46). -/
def Env.rx (e : Env) (k : Nat) : Byte := e.rxScript.getD k (Config.freeRx k)

/-- The k-th advance of the clock: scripted, else free (R226). -/
def Env.tick (e : Env) (k : Nat) : Nat := e.tickScript.getD k (Config.freeTick k)

/-- The next `n` bytes the bus delivers, in the order of delivery (R41, R46). -/
def Env.rxBytes (e : Env) (n : Nat) : List Byte := (List.range n).map fun i => e.rx (e.rxCount + i)

/-- The environment after `m` transport calls that delivered `n` bytes. -/
def Env.took (m n : Nat) (e : Env) : Env :=
  { e with ioCount := e.ioCount + m, rxCount := e.rxCount + n }

/-- `Now()`: one reading of the clock, never below the one before (R226). -/
def Env.ticked (e : Env) : Env :=
  { e with tickCount := e.tickCount + 1, now := e.now + e.tick e.tickCount }

def State.took (m n : Nat) (s : State) : State := { s with env := s.env.took m n }

def State.readClock (s : State) : State := { s with env := s.env.ticked }

/-! ## The two byte primitives (R90, R214) -/

/-- `write_bytes`: every byte is an event; a failure may have emitted any prefix (R91, R92). -/
def writeBytes (bs : List Byte) (s : State) : Ended Unit :=
  match s.env.io s.env.ioCount with
  | .ok => .done () ((s.took 1 0).emit (bs.map .tx))
  | .fail sent report => .raised (.transportFailure report) ((s.took 1 0).emit ((bs.take sent).map .tx))

/-- `read_bytes`: exactly `n` bytes, or a failure that delivers none (R90, R92). -/
def readBytes (n : Nat) (s : State) : Ended (List Byte) :=
  match s.env.io s.env.ioCount with
  | .ok => .done (s.env.rxBytes n) ((s.took 1 n).emit ((s.env.rxBytes n).map .rx))
  | .fail _ report => .raised (.transportFailure report) (s.took 1 0)

/-! ## Transactions -/

/-- One chip-select scope: asserted before, released after on every path (R92, R244). -/
def inScope {α : Type} (body : State → Ended α) (s : State) : Ended α :=
  match body s.assertCs with
  | .done a t => .done a t.releaseCs
  | .raised e t => .raised e t.releaseCs

/-- `Transact(tx, rx_len)` (R92): the bytes of one frame, then `n` bytes read. -/
def transact (tx : List Byte) (n : Nat) (s : State) : Ended (List Byte) :=
  inScope (fun s => (writeBytes tx s).andThen fun _ t =>
    if n = 0 then .done [] t else readBytes n t) s

/-- `Cmd(c, tx, rx_len)` (R93). -/
def command (c : Byte) (tx : List Byte) (n : Nat) (s : State) : Ended (List Byte) :=
  transact (c :: tx) n s

/-- A command frame that reads nothing, with no result. -/
def sendOnly (c : Byte) (tx : List Byte) (s : State) : Ended Unit :=
  (command c tx 0 s).map fun _ => ()

/-- `MemRead(addr, n)` (R9, R62, R94). -/
def readReg (a : RegAddr) (n : Nat) (s : State) : Ended (List Byte) :=
  transact [regCommand (opcodeOf s.params .rRegister) a] n s

/-- `MemWrite(addr, len, data)` (R9, R63, R95). -/
def writeReg (a : RegAddr) (data : List Byte) (s : State) : Ended Unit :=
  (transact (regCommand (opcodeOf s.params .wRegister) a :: data) 0 s).map fun _ => ()

/-- The one byte of a named register; the answer to a read of length 1 is one byte (R94). -/
def readByte (id : RegisterId) (s : State) : Ended Byte :=
  (readReg (addressOf s.params id) 1 s).map fun bs => bs.headD 0#8

/-- Write a named register (R95). -/
def writeNamed (id : RegisterId) (data : List Byte) (s : State) : Ended Unit :=
  writeReg (addressOf s.params id) data s

/-- `set_bits(id, mask)`: always a read and a write (R97). -/
def setBits (id : RegisterId) (mask : Byte) (s : State) : Ended Unit :=
  (readByte id s).andThen fun v => writeNamed id [v ||| mask]

/-- `clear_bits(id, mask)`: always a read and a write, the complement within 8 bits (R98). -/
def clearBits (id : RegisterId) (mask : Byte) (s : State) : Ended Unit :=
  (readByte id s).andThen fun v => writeNamed id [v &&& ~~~mask]

/-- `test_bits(id, mask)`: one read (R99). -/
def testBits (id : RegisterId) (mask : Byte) (s : State) : Ended Bool :=
  (readByte id s).map fun v => v &&& mask != 0#8

/-- The length of a register in bytes (R43). -/
def regLen (s : State) : RegisterId → Nat
  | .rxAddrP p => if p.val ≤ 1 then s.dh.addressWidth else 1
  | .txAddr => s.dh.addressWidth
  | .config | .enAa | .enRxaddr | .setupAw | .setupRetr | .rfCh | .rfSetup | .status | .observeTx
  | .rpd | .rxPwP _ | .fifoStatus | .feature => 1

/-- `Cmd` of a named command with no data (R107 to R109). -/
def sendNamed (c : CommandId) (s : State) : Ended Unit := sendOnly (opcodeOf s.params c) [] s

/-! ## How an operation ends -/

/-- The response a raised error puts on the port (R216). -/
def Error.response : Error → Response
  | .oversizedPayload offered limit => .oversizedPayload offered limit
  | .transmitTimeout => .transmitTimeout
  | .transportFailure report => .transportFailure report

/-- A response is raised when an error put it there (R210, R216). -/
def Response.isRaised : Response → Bool
  | .oversizedPayload _ _ | .transmitTimeout | .transportFailure _ => true
  | .ok _ | .maxRetransmitsReached | .configRejected => false

/-- The operation is over and the block idle, its response on the port (R18, R74, R219). -/
def State.respond (r : Response) (s : State) : State :=
  { s with txFsm := .idle, running := none, response := some r }

/-- `raise` (R218): nothing is saved and nothing is vectored; `tx_fsm` goes to IDLE, the kind goes on the
port, and chip-select, the enable line, `life` and the DeviceHandle keep what they hold at that point. There
is no return from it: the block is idle and accepts the next operation (R219). -/
def State.raise (e : Error) (s : State) : State := s.respond e.response

/-- The state after a body that answered a response or was raised. -/
def finish : Ended Response → State
  | .done r s => s.respond r
  | .raised e s => s.raise e

/-! ## How an operation is accepted -/

/-- Why the block takes no operation whatever: one is running (R229), or the operands are none (R77). -/
def requestRefusal (i : Instr) (s : State) : Option Refusal :=
  if s.running.isSome then some .operationRunning else i.illFormed?.map .illFormed

/-- Why a host operation is refused: as above, or the block is not initialised (R17, R217, R241). -/
def hostRefusal (i : Instr) (s : State) : Option Refusal :=
  match requestRefusal i s with
  | some r => some r
  | none => if s.life.initialised then none else some .notInitialised

/-- Why `init` is refused: it is taken in every lifecycle state (R190), with a static size of 1 or more (R11). -/
def initRefusal (i : Instr) (s : State) : Option Refusal :=
  match requestRefusal i s with
  | some r => some r
  | none => if s.params.staticPayloadSizeReq < 1 then some .staticSizeBelowOne else none

/-- The response of the operation before is withdrawn when a request is taken (R74). -/
def State.begin (s : State) : State := { s with response := none }

/-- Run the body of an operation unless it is refused: it is atomic for the host (R16). -/
def accept (refusal : Option Refusal) (body : State → Ended Response) (s : State) :
    Host.Outcome State Fault Refusal :=
  match refusal with
  | some r => .refused r
  | none => .next (finish (body s.begin))

/-- A host operation (R75, R217). -/
def hostOp (i : Instr) (body : State → Ended Response) (s : State) : Host.Outcome State Fault Refusal :=
  accept (hostRefusal i s) body s

/-- A bus command, run by itself: the frame the framer emits for it (R93, R100 to R111; log entry 2). -/
def busOp (i : Instr) (body : State → Ended Response) (s : State) : Host.Outcome State Fault Refusal :=
  accept (requestRefusal i s) body s

/-- End with kind Ok and the value. -/
def Ended.returning {α : Type} (v : α → Value) (r : Ended α) : Ended Response :=
  r.map fun a => .ok (v a)

/-- End with kind Ok and no value. -/
def Ended.returningNothing {α : Type} (r : Ended α) : Ended Response := r.returning fun _ => .nothing

/-! ## Fetch -/

/-- The next request on the port and the state with it taken (R47, R74). -/
def fetch (s : State) : Option (Request × State) :=
  match s.port with
  | [] => none
  | rq :: rest => some (rq, { s with port := rest })

end Sys2Proof.Machine
end

