-- ==== Sys2Proof/Machine/Engine.lean ====
section
/-! DEFINITION. The three contract operations of the transaction engine (R94, R95, R96). -/

namespace Sys2Proof.Machine

/-- `read_register` (R94). -/
def execReadRegister (id : RegOperand) (length : BitVec 3) (s : State) :=
  hostOp (.readRegister id length)
    (fun s => (readReg (registerNumber s.params id) length.toNat s).returning .bytes) s

/-- `write_register` (R95): the DeviceHandle is not written, whatever the register (R252). -/
def execWriteRegister (id : RegOperand) (value : RegValue) (s : State) :=
  hostOp (.writeRegister id value)
    (fun s => (writeReg (registerNumber s.params id) (regData value) s).returningNothing) s

/-- `send_command` (R96): the result is absent where no response is asked for. -/
def execSendCommand (cmd : CmdOperand) (responseLength : Byte) (s : State) :=
  hostOp (.sendCommand cmd responseLength) (fun s =>
    (command (commandNumber s.params cmd) [] responseLength.toNat s).returning fun r =>
      if responseLength.toNat = 0 then .nothing else .bytes r) s

end Sys2Proof.Machine
end

