-- ==== Sys2Proof/Machine/Bus.lean ====
section
/-! DEFINITION. The twelve bus commands (R100 to R111): what the block puts in the frame and what it takes
out. Each is one chip-select scope (R92). -/

namespace Sys2Proof.Machine

/-- R_REGISTER (R62, R100). -/
def execCmdRRegister (addr : RegAddr) (len : BitVec 3) (s : State) :=
  busOp (.cmdRRegister addr len) (fun s => (readReg addr len.toNat s).returning .bytes) s

/-- W_REGISTER (R63, R101). -/
def execCmdWRegister (addr : RegAddr) (data : List Byte) (s : State) :=
  busOp (.cmdWRegister addr data) (fun s => (writeReg addr data s).returningNothing) s

/-- R_RX_PAYLOAD (R102). -/
def execCmdRRxPayload (n : Byte) (s : State) :=
  busOp (.cmdRRxPayload n)
    (fun s => (command (opcodeOf s.params .rRxPayload) [] n.toNat s).returning .bytes) s

/-- W_TX_PAYLOAD (R103). -/
def execCmdWTxPayload (data : List Byte) (s : State) :=
  busOp (.cmdWTxPayload data)
    (fun s => (sendOnly (opcodeOf s.params .wTxPayload) data s).returningNothing) s

/-- W_TX_PAYLOAD_NOACK (R104). -/
def execCmdWTxPayloadNoack (data : List Byte) (s : State) :=
  busOp (.cmdWTxPayloadNoack data)
    (fun s => (sendOnly (opcodeOf s.params .wTxPayloadNoack) data s).returningNothing) s

/-- R_RX_PL_WID (R105). -/
def execCmdRRxPlWid (s : State) :=
  busOp .cmdRRxPlWid (fun s => (command (opcodeOf s.params .rRxPlWid) [] 1 s).returning .bytes) s

/-- W_ACK_PAYLOAD (R64, R106). -/
def execCmdWAckPayload (pipe : Pipe) (data : List Byte) (s : State) :=
  busOp (.cmdWAckPayload pipe data)
    (fun s => (sendOnly (pipeCommand (opcodeOf s.params .wAckPayload) pipe) data s).returningNothing) s

/-- FLUSH_TX (R107). -/
def execCmdFlushTx (s : State) := busOp .cmdFlushTx (fun s => (sendNamed .flushTx s).returningNothing) s

/-- FLUSH_RX (R108). -/
def execCmdFlushRx (s : State) := busOp .cmdFlushRx (fun s => (sendNamed .flushRx s).returningNothing) s

/-- REUSE_TX_PL (R109). -/
def execCmdReuseTxPl (s : State) :=
  busOp .cmdReuseTxPl (fun s => (sendNamed .reuseTxPl s).returningNothing) s

/-- ACTIVATE with its argument bytes: the internal step of `init` (R110, R197). -/
def activate (s : State) : Ended Unit :=
  sendOnly (opcodeOf s.params .activate) s.params.activateArg s

/-- ACTIVATE (R110). -/
def execCmdActivate (s : State) := busOp .cmdActivate (fun s => (activate s).returningNothing) s

/-- NOP: the command byte alone (R111). -/
def execCmdNop (s : State) := busOp .cmdNop (fun s => (sendNamed .nop s).returningNothing) s

end Sys2Proof.Machine
end

