-- ==== Sys2Proof/Machine/Configuration.lean ====
section
/-! DEFINITION. The Configuration Logic (R120 to R128). -/

namespace Sys2Proof.Machine

/-- `MemWrite(A_RF_CH, 1, [ch])`, also a step of `init` and `teardown` (R120). -/
def writeChannel (ch : Byte) (s : State) : Ended Unit := writeNamed .rfCh [ch] s

/-- Write SETUP_AW, then cache the width (R127). -/
def writeAddressWidth (n : Nat) (s : State) : Ended Unit :=
  (writeNamed .setupAw [BitVec.ofNat 8 (setupAwCode n)] s).andThen fun _ t =>
    .done () (t.setAddressWidth (setupAwCode n + 2))

/-- `set_channel` (R120): no check of the range (D14). -/
def execSetChannel (ch : Byte) (s : State) :=
  hostOp (.setChannel ch) (fun s => (writeChannel ch s).returningNothing) s

/-- `channel` (R121). -/
def execChannel (s : State) := hostOp .channel (fun s => (readByte .rfCh s).returning .byte) s

/-- `rf_setup` (R122): rejected without any transaction where a symbol is not recognised (R215). -/
def execRfSetup (d : DatarateArg) (p : PowerArg) (s : State) :=
  hostOp (.rfSetup d p) (fun s =>
    match datarateSymbol d, powerSymbol p with
    | some dr, some pw =>
      (writeNamed .rfSetup [rfSetupValue s.params dr pw] s).returning fun _ =>
        .byte (rfSetupValue s.params dr pw)
    | _, _ => .done .configRejected s) s

/-- `datarate` (R123). -/
def execDatarate (s : State) :=
  hostOp .datarate (fun s => (readByte .rfSetup s).returning fun v => .datarate (datarateOf v)) s

/-- `crc_length` (R124): both registers are read, CONFIG first. -/
def execCrcLength (s : State) :=
  hostOp .crcLength (fun s =>
    (readByte .config s).andThen fun c t =>
      (readByte .enAa t).returning fun aa => .crc (crcModeOf s.params c aa)) s

/-- `set_crc_length` (R125). -/
def execSetCrcLength (len : CrcArg) (s : State) :=
  hostOp (.setCrcLength len) (fun s =>
    ((readByte .config s).andThen fun c =>
      writeNamed .config [withCrc s.params (crcSymbol len) c]).returningNothing) s

/-- `set_retries` (R126). -/
def execSetRetries (delay count : BitVec 4) (s : State) :=
  hostOp (.setRetries delay count) (fun s =>
    (writeNamed .setupRetr [setupRetrValue delay count] s).returningNothing) s

/-- `set_address_width` (R127). -/
def execSetAddressWidth (n : BitVec 3) (s : State) :=
  hostOp (.setAddressWidth n) (fun s => (writeAddressWidth n.toNat s).returningNothing) s

/-- `address_width`: no bus activity (R128). -/
def execAddressWidth (s : State) :=
  hostOp .addressWidth (fun s => .done (.ok (.width s.dh.addressWidth)) s) s

end Sys2Proof.Machine
end

