-- ==== Sys2Proof/Machine/Status.lean ====
section
/-! DEFINITION. Status and diagnostics (R170 to R179): each query is one register read and what that byte
alone says (R177). -/

namespace Sys2Proof.Machine

/-- Clear all three interrupt flags, also a step of `init`, `start_listening` and `read` (R174). -/
def clearInterrupts (s : State) : Ended Unit := writeNamed .status [clearAllFlags] s

/-- One read of FEATURE and its EN_DPL bit (R178). -/
def readDynamicPayloads (s : State) : Ended Bool :=
  (readByte .feature s).map fun v => bitOf v s.params.bEnDpl

/-- One read of FEATURE and its EN_ACK_PAY bit (R179). -/
def readAckPayloads (s : State) : Ended Bool :=
  (readByte .feature s).map fun v => bitOf v s.params.bEnAckPay

/-- `status` (R170). -/
def execStatus (s : State) := hostOp .status (fun s => (readByte .status s).returning .byte) s

/-- `data_available?` (R171): the code 6 has no meaning and is refused (U2). -/
def execDataAvailable (s : State) : Host.Outcome State Fault Refusal :=
  match hostRefusal .dataAvailable s with
  | some r => .refused r
  | none =>
    match readByte .status s.begin with
    | .raised e t => .next (t.raise e)
    | .done v t =>
      if rxPNo v = 7 then .next (t.respond (.ok .notAvailable))
      else if rxPNo v ≤ 5 then .next (t.respond (.ok (.pipe (rxPNo v))))
      else .refused .rxPNoUnused

/-- `interrupt_flags` (R172). -/
def execInterruptFlags (s : State) :=
  hostOp .interruptFlags
    (fun s => (readByte .status s).returning fun v => .interrupts (interruptFlagsOf v)) s

/-- `fifo_flags` (R173). -/
def execFifoFlags (s : State) :=
  hostOp .fifoFlags
    (fun s => (readByte .fifoStatus s).returning fun v => .fifo (fifoFlagsOf s.params v)) s

/-- `clear_interrupt_flags` (R174): one write and no read. -/
def execClearInterruptFlags (s : State) :=
  hostOp .clearInterruptFlags (fun s => (clearInterrupts s).returningNothing) s

/-- `received_power` (R175). -/
def execReceivedPower (s : State) :=
  hostOp .receivedPower (fun s => (readByte .rpd s).returning fun v => .boolean (v != 0#8)) s

/-- `observe_tx` (R176). -/
def execObserveTx (s : State) :=
  hostOp .observeTx (fun s => (readByte .observeTx s).returning fun v =>
    .counters (countersOf s.params v).1 (countersOf s.params v).2) s

/-- `dynamic_payloads_enabled?` (R178). -/
def execDynamicPayloadsEnabled (s : State) :=
  hostOp .dynamicPayloadsEnabled (fun s => (readDynamicPayloads s).returning .boolean) s

/-- `ack_payloads_enabled?` (R179). -/
def execAckPayloadsEnabled (s : State) :=
  hostOp .ackPayloadsEnabled (fun s => (readAckPayloads s).returning .boolean) s

end Sys2Proof.Machine
end

