-- ==== Sys2Proof/Machine/Payload.lean ====
section
/-! DEFINITION. The Payload I/O state machine (R150 to R160). A `write` that finds the FIFO full stays
running, with `tx_fsm` at POLL_FIFO, and every step of the machine is then one more iteration of its polling
loop (R151; log entry 8). -/

namespace Sys2Proof.Machine

/-! ## Transmit -/

/-- The largest payload allowed: 32 in dynamic mode, else the static size (R152). -/
def payloadLimit (dynamic : Bool) (s : State) : Nat := if dynamic then 32 else s.dh.staticPayloadSize

/-- The data of the payload frame: padded in static mode only (R73, R152). -/
def payloadData (dynamic : Bool) (payload : List Byte) (s : State) : List Byte :=
  if dynamic then payload else padTo s.dh.staticPayloadSize payload

/-- `validate_and_pad` (R152). -/
def validateAndPad (payload : List Byte) (s : State) : Ended (List Byte) :=
  (readDynamicPayloads s).andThen fun dynamic t =>
    if payloadLimit dynamic t < payload.length then
      .raised (.oversizedPayload payload.length (payloadLimit dynamic t)) t
    else .done (payloadData dynamic payload t) t

/-- The write-payload command of an acknowledge mode (R153). -/
def payloadCommand : AckMode → CommandId
  | .ack => .wTxPayload
  | .noAck => .wTxPayloadNoack

/-- The first half of `pulse_enable` (R154). -/
def pulseHigh (s : State) : State := s.raiseEnable.setLife .transmitting

/-- The second half of `pulse_enable` (R154). -/
def pulseLow (s : State) : State := s.dropEnable.setLife .standby

/-- `pulse_enable`: two events with nothing between them; it cannot fail (R154, R245). -/
def pulseEnable (s : State) : State := pulseLow (pulseHigh s)

/-- WRITE and PULSE_ENABLE, once the FIFO has room (R150, R152 to R154). -/
def transmit (w : PendingWrite) (s : State) : Ended Response :=
  (validateAndPad w.payload (s.setTxFsm .write)).andThen fun data t =>
    (sendOnly (opcodeOf t.params (payloadCommand w.ackMode)) data t).andThen fun _ u =>
      .done (.ok .okSymbol) (pulseEnable (u.setTxFsm .pulseEnable))

/-- MAX_RT is cleared, and it alone, before the result is answered (R151, R213). -/
def reportMaxRetransmits (s : State) : Ended Response :=
  (writeNamed .status [clearMaxRt] s).map fun _ => .maxRetransmitsReached

/-- One iteration of POLL_FIFO, and all that follows when it leaves the loop (R150, R151, R223): room first,
then MAX_RT, then the time. An iteration that leaves none of these ways leaves the `write` running. -/
def pollOnce (w : PendingWrite) (s : State) : State :=
  match readByte .status s with
  | .raised e t => t.raise e
  | .done v t =>
    if !bitOf v bTxFull then finish (transmit w t)
    else if bitOf v bMaxRt then finish (reportMaxRetransmits t)
    else if t.readClock.env.now - w.t0 > w.timeout then t.readClock.raise .transmitTimeout
    else t.readClock

/-- The operands of a `write` with the start time sampled now (R151). -/
def pendingWrite (payload : List Byte) (mode : AckMode) (timeout : Option Nat) (s : State) :
    PendingWrite :=
  { payload := payload, ackMode := mode
    timeout := timeout.getD s.params.timeoutDefault, t0 := s.env.ticked.now }

/-- The state in which POLL_FIFO begins: `t0` is taken before the first read (R150, R151). -/
def startWrite (w : PendingWrite) (s : State) : State :=
  (s.begin.readClock.setTxFsm .pollFifo).setRunning (some w)

/-- `write` (R150): it starts, and the first iteration of the loop is part of the same step. -/
def execWrite (payload : List Byte) (mode : AckMode) (timeout : Option Nat) (s : State) :
    Host.Outcome State Fault Refusal :=
  match hostRefusal (.write payload mode timeout) s with
  | some r => .refused r
  | none =>
    .next (pollOnce (pendingWrite payload mode timeout s)
      (startWrite (pendingWrite payload mode timeout s) s))

/-! ## Receive -/

/-- The length `read` asks for: the width byte as received, or the static size (R155). -/
def readLength (s : State) : Ended Nat :=
  (readDynamicPayloads s).andThen fun dynamic t =>
    if dynamic then (command (opcodeOf t.params .rRxPlWid) [] 1 t).map fun bs => (bs.headD 0#8).toNat
    else .done t.dh.staticPayloadSize t

/-- `read` (R155): exactly one clear of the interrupt flags, after the payload. -/
def execRead (s : State) :=
  hostOp .read (fun s =>
    (readLength s).andThen fun n t =>
      (command (opcodeOf t.params .rRxPayload) [] n t).andThen fun data u =>
        (clearInterrupts u).returning fun _ => .bytes data) s

/-! ## Acknowledge payload, flushes, reuse -/

/-- `set_ack_payload` (R156): OversizedPayload precedes every event. -/
def execSetAckPayload (pipe : Pipe) (payload : List Byte) (s : State) :=
  hostOp (.setAckPayload pipe payload) (fun s =>
    if 32 < payload.length then .raised (.oversizedPayload payload.length 32) s
    else (sendOnly (pipeCommand (opcodeOf s.params .wAckPayload) pipe) payload s).returningNothing) s

/-- `flush_tx` (R157). -/
def execFlushTx (s : State) := hostOp .flushTx (fun s => (sendNamed .flushTx s).returningNothing) s

/-- `flush_rx` (R158). -/
def execFlushRx (s : State) := hostOp .flushRx (fun s => (sendNamed .flushRx s).returningNothing) s

/-- `reuse_tx_payload`: the declared command and nothing else (R160). -/
def execReuseTxPayload (s : State) :=
  hostOp .reuseTxPayload (fun s => (sendNamed .reuseTxPl s).returningNothing) s

end Sys2Proof.Machine
end

