-- ==== Sys2Proof/Machine/Pipes.lean ====
section
/-! DEFINITION. The Pipe Manager (R140 to R143). -/

namespace Sys2Proof.Machine

/-- The bytes that go to RX_ADDR_Pp: the full address for pipes 0 and 1, its first byte for pipes 2 to 5
(R42, R140; 90_conflicts.md C1). -/
def pipeAddressBytes (p : Pipe) (a : List Byte) : List Byte :=
  if p.val ≤ 1 then a else a.take 1

/-- The address of pipe 0 is cached as it was given (R13, R140). -/
def cachePipe0 (p : Pipe) (a : List Byte) (s : State) : State :=
  if p.val = 0 then s.setPipe0Address (some a) else s

/-- `MemWrite(A_RX_PW_P(p), 1, [dh.static_payload_size])` (R34). -/
def writePayloadWidth (p : Pipe) (s : State) : Ended Unit :=
  writeNamed (.rxPwP p) [BitVec.ofNat 8 s.dh.staticPayloadSize] s

/-- A full address must be `dh.address_width` bytes long (R43, R140, R142). -/
def addressRefusal (i : Instr) (full : Bool) (a : List Byte) (s : State) : Option Refusal :=
  match hostRefusal i s with
  | some r => some r
  | none => if full && a.length != s.dh.addressWidth then some .addressLength else none

/-- `open_reading_pipe` (R140): address, cache, payload width, enable bit. -/
def execOpenReadingPipe (pipe : Pipe) (address : List Byte) (s : State) :=
  accept (addressRefusal (.openReadingPipe pipe address) (decide (pipe.val ≤ 1)) address s) (fun s =>
    ((writeNamed (.rxAddrP pipe) (pipeAddressBytes pipe address) s).andThen fun _ t =>
      (writePayloadWidth pipe (cachePipe0 pipe address t)).andThen fun _ =>
        setBits .enRxaddr (pipeMask pipe)).returningNothing) s

/-- `close_reading_pipe` (R141). -/
def execCloseReadingPipe (pipe : Pipe) (s : State) :=
  hostOp (.closeReadingPipe pipe) (fun s => (clearBits .enRxaddr (pipeMask pipe) s).returningNothing) s

/-- `open_writing_pipe` (R142): the cache of pipe 0 is not written (R143). -/
def execOpenWritingPipe (address : List Byte) (s : State) :=
  accept (addressRefusal (.openWritingPipe address) true address s) (fun s =>
    ((writeNamed (.rxAddrP 0) address s).andThen fun _ t =>
      (writeNamed .txAddr address t).andThen fun _ => writePayloadWidth 0).returningNothing) s

end Sys2Proof.Machine
end

