-- ==== Sys2Proof/Machine/Lifecycle.lean ====
section
/-! DEFINITION. The lifecycle sequences (R190 to R197). -/

namespace Sys2Proof.Machine

/-- `disable_dynamic_payloads` (R192). -/
def disableDynamicPayloads (s : State) : Ended Unit := clearBits .feature (bitMask s.params.bEnDpl) s

/-- `enable_auto_ack_all` (R193). -/
def enableAutoAckAll (s : State) : Ended Unit := writeNamed .enAa [allPipesMask] s

/-- RX_PW of each pipe of a list, in its order (R191 step 4). -/
def writePayloadWidths : List Pipe → State → Ended Unit
  | [], s => .done () s
  | p :: ps, s => (writePayloadWidth p s).andThen fun _ => writePayloadWidths ps

/-- Step 0 of `init` (R191). -/
def loadHandle (s : State) : State :=
  (s.setStaticPayloadSize (clampedSize s.params)).setPipe0Address none

/-- Steps 0 to 9 of `init`, in the source's order (R191, R243). -/
def initSequence (s : State) : Ended Unit :=
  (activate (loadHandle s)).andThen fun _ s =>
  (writeAddressWidth 5 s).andThen fun _ s =>
  (writeChannel s.params.initialChannel s).andThen fun _ s =>
  (writePayloadWidths allPipes s).andThen fun _ s =>
  (disableDynamicPayloads s).andThen fun _ s =>
  (enableAutoAckAll s).andThen fun _ s =>
  (writeNamed .config [configInit s.params] s).andThen fun _ s =>
  (clearInterrupts s).andThen fun _ s =>
  (sendNamed .flushRx s).andThen fun _ s =>
  sendNamed .flushTx s

/-- Set the lifecycle state at the end of a sequence that was not raised out of. -/
def Ended.thenLife {α : Type} (l : Life) (r : Ended α) : Ended Response :=
  r.andThen fun _ s => .done (.ok .nothing) (s.setLife l)

/-- `init` (R191): accepted in every lifecycle state (R190, R241). -/
def execInit (s : State) :=
  accept (initRefusal .init s) (fun s => (initSequence s).thenLife .standby) s

/-- FLUSH_TX if acknowledge payloads are enabled (R194 step 5, R195 step 2). -/
def flushTxIfAckPayloads (s : State) : Ended Unit :=
  (readAckPayloads s).andThen fun enabled t => if enabled then sendNamed .flushTx t else .done () t

/-- Step 3 of `start_listening`: the cached address is written with its own length (R143, R194). -/
def restorePipe0 (s : State) : Ended Unit :=
  match s.dh.pipe0ReadingAddress with
  | none => .done () s
  | some a => writeNamed (.rxAddrP 0) a s

/-- `start_listening` (R194). -/
def execStartListening (s : State) :=
  hostOp .startListening (fun s =>
    ((setBits .config (bitMask s.params.bPrimRx) s).andThen fun _ s =>
      (clearInterrupts s).andThen fun _ s =>
      (restorePipe0 s).andThen fun _ s =>
      flushTxIfAckPayloads s.raiseEnable).thenLife .listening) s

/-- `stop_listening` (R195). -/
def execStopListening (s : State) :=
  hostOp .stopListening (fun s =>
    ((flushTxIfAckPayloads s.dropEnable).andThen fun _ s =>
      (clearBits .config (bitMask s.params.bPrimRx) s).andThen fun _ s =>
      writeNamed .enRxaddr [allPipesMask] s).thenLife .standby) s

/-- Why `teardown` is refused: as a host operation, or its re-run of `init` would be (R11, R196). -/
def teardownRefusal (s : State) : Option Refusal :=
  match hostRefusal .teardown s with
  | some r => some r
  | none => if s.params.staticPayloadSizeReq < 1 then some .staticSizeBelowOne else none

/-- `teardown` (R196; 90_conflicts.md C7). -/
def execTeardown (s : State) :=
  accept (teardownRefusal s) (fun s =>
    ((initSequence s.dropEnable).andThen fun _ s => writeChannel 0#8 s).thenLife .tornDown) s

end Sys2Proof.Machine
end

