-- ==== Sys2Proof/Machine/Dispatch.lean ====
section
/-! DEFINITION. The dispatch of an instruction to its meaning. -/

namespace Sys2Proof.Machine

def exec (i : Instr) (s : State) : Host.Outcome State Fault Refusal :=
  match i with
  | .cmdRRegister addr len => Sys2Proof.Machine.execCmdRRegister addr len s
  | .cmdWRegister addr data => Sys2Proof.Machine.execCmdWRegister addr data s
  | .cmdRRxPayload n => Sys2Proof.Machine.execCmdRRxPayload n s
  | .cmdWTxPayload data => Sys2Proof.Machine.execCmdWTxPayload data s
  | .cmdWTxPayloadNoack data => Sys2Proof.Machine.execCmdWTxPayloadNoack data s
  | .cmdRRxPlWid => Sys2Proof.Machine.execCmdRRxPlWid s
  | .cmdWAckPayload pipe data => Sys2Proof.Machine.execCmdWAckPayload pipe data s
  | .cmdFlushTx => Sys2Proof.Machine.execCmdFlushTx s
  | .cmdFlushRx => Sys2Proof.Machine.execCmdFlushRx s
  | .cmdReuseTxPl => Sys2Proof.Machine.execCmdReuseTxPl s
  | .cmdActivate => Sys2Proof.Machine.execCmdActivate s
  | .cmdNop => Sys2Proof.Machine.execCmdNop s
  | .readRegister id length => Sys2Proof.Machine.execReadRegister id length s
  | .writeRegister id value => Sys2Proof.Machine.execWriteRegister id value s
  | .sendCommand cmd n => Sys2Proof.Machine.execSendCommand cmd n s
  | .setChannel ch => Sys2Proof.Machine.execSetChannel ch s
  | .channel => Sys2Proof.Machine.execChannel s
  | .rfSetup d p => Sys2Proof.Machine.execRfSetup d p s
  | .datarate => Sys2Proof.Machine.execDatarate s
  | .crcLength => Sys2Proof.Machine.execCrcLength s
  | .setCrcLength len => Sys2Proof.Machine.execSetCrcLength len s
  | .setRetries delay count => Sys2Proof.Machine.execSetRetries delay count s
  | .setAddressWidth n => Sys2Proof.Machine.execSetAddressWidth n s
  | .addressWidth => Sys2Proof.Machine.execAddressWidth s
  | .openReadingPipe pipe a => Sys2Proof.Machine.execOpenReadingPipe pipe a s
  | .closeReadingPipe pipe => Sys2Proof.Machine.execCloseReadingPipe pipe s
  | .openWritingPipe a => Sys2Proof.Machine.execOpenWritingPipe a s
  | .write payload mode timeout => Sys2Proof.Machine.execWrite payload mode timeout s
  | .read => Sys2Proof.Machine.execRead s
  | .setAckPayload pipe payload => Sys2Proof.Machine.execSetAckPayload pipe payload s
  | .flushTx => Sys2Proof.Machine.execFlushTx s
  | .flushRx => Sys2Proof.Machine.execFlushRx s
  | .reuseTxPayload => Sys2Proof.Machine.execReuseTxPayload s
  | .status => Sys2Proof.Machine.execStatus s
  | .dataAvailable => Sys2Proof.Machine.execDataAvailable s
  | .interruptFlags => Sys2Proof.Machine.execInterruptFlags s
  | .fifoFlags => Sys2Proof.Machine.execFifoFlags s
  | .clearInterruptFlags => Sys2Proof.Machine.execClearInterruptFlags s
  | .receivedPower => Sys2Proof.Machine.execReceivedPower s
  | .observeTx => Sys2Proof.Machine.execObserveTx s
  | .dynamicPayloadsEnabled => Sys2Proof.Machine.execDynamicPayloadsEnabled s
  | .ackPayloadsEnabled => Sys2Proof.Machine.execAckPayloadsEnabled s
  | .init => Sys2Proof.Machine.execInit s
  | .startListening => Sys2Proof.Machine.execStartListening s
  | .stopListening => Sys2Proof.Machine.execStopListening s
  | .teardown => Sys2Proof.Machine.execTeardown s

end Sys2Proof.Machine
end

