-- ==== Sys2Proof/Machine/Step.lean ====
section
/-! DEFINITION. One step of the machine: the running `write` polls once more, or else the next request on
the port is decoded and executed, or else the block is idle (R16, R47, R229, R231). -/

namespace Sys2Proof.Machine

/-- One step. The port takes one operation at a time (R229): while a `write` is running no request is looked
at. With no request the block is idle and loses nothing (R231). -/
def step (s : State) : Host.Outcome State Fault Refusal :=
  match s.running with
  | some w => .next (pollOnce w s)
  | none =>
    match fetch s with
    | none => .next s
    | some (rq, t) =>
      match decode rq with
      | .error r => .refused (.undecodable r)
      | .ok i => exec i t

/-- The state in which the block takes a request: no `write` is running, and for a host operation other than
`init`, which alone is accepted before `init` and after `teardown` (R241), the block is as `init` leaves it
(R38). -/
def State.awaiting (rq : Request) (s : State) : State :=
  let idle := { s with txFsm := .idle, running := none }
  if s.life.initialised || rq.space == .bus || decode rq == .ok .init then idle
  else (((idle.setStaticPayloadSize (clampedSize s.params)).setAddressWidth 5).setPipe0Address
    none).setLife .standby

/-- The request of a table word placed at the head of the port, in a block that takes it (log entry 9). -/
def State.withFetchWord (s : State) (nbits w : Nat) : State :=
  { s.awaiting (tableRequest nbits w) with port := tableRequest nbits w :: s.port }

end Sys2Proof.Machine
end

