-- ==== Sys2Proof/Safety.lean ====
section
/-! DEFINITION. What the claims are stated in: the frames of the bus, the state after an operation that ran
to its end, the discipline of the emitted events, and the invariant of the block. -/

namespace Sys2Proof.Machine

/-! ## Frames (R60, R62, R63) -/

/-- A frame: chip-select asserted, the bytes written, the bytes read, chip-select released (R60). -/
def busFrame (tx rx : List Byte) : List Event :=
  .csAssert :: (tx.map .tx ++ rx.map .rx ++ [.csRelease])

/-- A register read that was answered with `bs` (R62). -/
def readFrame (a : RegAddr) (bs : List Byte) : List Event := busFrame [0x00#8 ||| a.setWidth 8] bs

/-- A register write (R63). -/
def writeFrame (a : RegAddr) (bs : List Byte) : List Event :=
  busFrame ((0x20#8 ||| a.setWidth 8) :: bs) []

/-- The events of a frame whose `write_bytes` failed after `sent` bytes (R92, R214). -/
def brokenFrame (tx : List Byte) (sent : Nat) : List Event := busFrame (tx.take sent) []

/-! ## Situations -/

/-- No operation is running (R18, R19). -/
abbrev Idle (s : State) : Prop := s.running = none ∧ s.txFsm = .idle ∧ s.csn = .released

/-- The block is idle and initialised: it accepts host operations (R17). -/
abbrev Ready (s : State) : Prop := Idle s ∧ s.life.initialised = true

/-- The next `m` transport calls succeed (R214, D10). -/
abbrev IoOk (m : Nat) (s : State) : Prop := ∀ k, k < m → s.env.io (s.env.ioCount + k) = .ok

/-- The k-th byte, from here on, that the bus delivers (R46). -/
def answer (k : Nat) (s : State) : Byte := s.env.rx (s.env.rxCount + k)

/-- The `n` bytes the bus delivers from the k-th on (R46). -/
def answers (k n : Nat) (s : State) : List Byte := (List.range n).map fun i => answer (k + i) s

/-- `s` after an operation that made `m` successful transport calls reading `n` bytes, emitted `es` and
answered `r`, and changed nothing else. -/
def State.after (m n : Nat) (es : List Event) (r : Response) (s : State) : State :=
  { s with trace := s.trace ++ es, response := some r, env := s.env.took m n }

/-- `s` after a running `write` that made `m` transport calls reading `n` bytes, emitted `es` and ended with
`r`, and changed nothing else (R18, R150). -/
def State.ended (m n : Nat) (es : List Event) (r : Response) (s : State) : State :=
  { s.after m n es r with txFsm := .idle, running := none }

/-- The state in which a `write` polls a full FIFO between two steps (R18, R37). -/
abbrev Polling (w : PendingWrite) (s : State) : Prop :=
  s.running = some w ∧ s.txFsm = .pollFifo ∧ s.csn = .released

/-- What the status byte of a full FIFO without MAX_RT says (R151). -/
abbrev FullNoMaxRt (status : Byte) : Prop := bitOf status 0 = true ∧ bitOf status 4 = false

/-- The reading of the clock after `n` more readings (R226). -/
def nowAfter (n : Nat) (s : State) : Nat :=
  s.env.now + ((List.range n).map fun i => s.env.tick (s.env.tickCount + i)).sum

/-- The events of `init`, where FEATURE was answered with `f` (the trace of R191). -/
def initEvents (P : Params) (f : Byte) : List Event :=
  busFrame (0x50#8 :: P.activateArg) []
    ++ writeFrame P.aSetupAw [3#8]
    ++ writeFrame P.aRfCh [P.initialChannel]
    ++ writeFrame P.aRxPwP[0] [BitVec.ofNat 8 (clampedSize P)]
    ++ writeFrame P.aRxPwP[1] [BitVec.ofNat 8 (clampedSize P)]
    ++ writeFrame P.aRxPwP[2] [BitVec.ofNat 8 (clampedSize P)]
    ++ writeFrame P.aRxPwP[3] [BitVec.ofNat 8 (clampedSize P)]
    ++ writeFrame P.aRxPwP[4] [BitVec.ofNat 8 (clampedSize P)]
    ++ writeFrame P.aRxPwP[5] [BitVec.ofNat 8 (clampedSize P)]
    ++ readFrame 0x1D#5 [f]
    ++ writeFrame 0x1D#5 [f &&& ~~~bitMask P.bEnDpl]
    ++ writeFrame P.aEnAa [0x3F#8]
    ++ writeFrame 0x00#5 [configInit P]
    ++ writeFrame P.aStatus [0x70#8]
    ++ busFrame [0xE2#8] []
    ++ busFrame [0xE1#8] []

/-- The events of `start_listening` up to CE_HIGH, where CONFIG was answered with `c` (R194 steps 1 to 4). -/
def listenEvents (c : Byte) (s : State) : List Event :=
  readFrame 0x00#5 [c]
    ++ writeFrame 0x00#5 [c ||| 1#8 <<< s.params.bPrimRx.val]
    ++ writeFrame s.params.aStatus [0x70#8]
    ++ (match s.dh.pipe0ReadingAddress with
      | none => []
      | some a => writeFrame s.params.aRxAddrP[0] a)
    ++ [.ceHigh]

/-- How many transport calls those events take. -/
def listenCalls (s : State) : Nat := 4 + if s.dh.pipe0ReadingAddress.isSome then 1 else 0

/-- The largest payload `write` takes, where FEATURE was answered with `f` (R152). -/
def sizeLimit (f : Byte) (s : State) : Nat :=
  if bitOf f s.params.bEnDpl then 32 else s.dh.staticPayloadSize

/-- The payload frame of a `write`, where FEATURE was answered with `f`: the command of the mode, and the
payload, followed by zeros up to the static size in static mode (R73, R152, R153). -/
def payloadBytes (mode : AckMode) (payload : List Byte) (f : Byte) (s : State) : List Byte :=
  (match mode with
    | .ack => s.params.cWTxPayload
    | .noAck => s.params.cWTxPayloadNoack) ::
  (if bitOf f s.params.bEnDpl then payload
    else payload ++ List.replicate (s.dh.staticPayloadSize - payload.length) 0#8)

/-- The DeviceHandle after `init` (R38, R191). -/
def initHandle (s : State) : DeviceHandle :=
  { s.dh with
    staticPayloadSize := clampedSize s.params, addressWidth := 5, pipe0ReadingAddress := none }

/-! ## The one frame of an instruction -/

/-- The bytes an instruction writes and the number it reads, for every instruction that is one frame and
has nothing to reject (R60, R62 to R65, R177). -/
def soleFrame (P : Params) : Instr → Option (List Byte × Nat)
  | .cmdRRegister a len => some ([regCommand 0x00#8 a], len.toNat)
  | .readRegister r len => some ([regCommand 0x00#8 (registerNumber P r)], len.toNat)
  | .cmdWRegister a data => some (regCommand 0x20#8 a :: data, 0)
  | .writeRegister r v => some (regCommand 0x20#8 (registerNumber P r) :: regData v, 0)
  | .cmdRRxPayload n => some ([0x61#8], n.toNat)
  | .cmdWTxPayload data => some (P.cWTxPayload :: data, 0)
  | .cmdWTxPayloadNoack data => some (P.cWTxPayloadNoack :: data, 0)
  | .cmdRRxPlWid => some ([P.cRRxPlWid], 1)
  | .cmdWAckPayload p data => some (pipeCommand P.cWAckPayload p :: data, 0)
  | .setAckPayload p data =>
    if data.length ≤ 32 then some (pipeCommand P.cWAckPayload p :: data, 0) else none
  | .cmdFlushTx | .flushTx => some ([0xE1#8], 0)
  | .cmdFlushRx | .flushRx => some ([0xE2#8], 0)
  | .cmdReuseTxPl | .reuseTxPayload => some ([P.cReuseTxPl], 0)
  | .cmdActivate => some (0x50#8 :: P.activateArg, 0)
  | .cmdNop => some ([0xFF#8], 0)
  | .sendCommand c n => some ([commandNumber P c], n.toNat)
  | .setChannel ch => some ([regCommand 0x20#8 P.aRfCh, ch], 0)
  | .channel => some ([regCommand 0x00#8 P.aRfCh], 1)
  | .rfSetup d p => match datarateSymbol d, powerSymbol p with
    | some dr, some pw => some ([regCommand 0x20#8 P.aRfSetup, rfSetupValue P dr pw], 0)
    | _, _ => none
  | .datarate => some ([regCommand 0x00#8 P.aRfSetup], 1)
  | .setRetries d c => some ([regCommand 0x20#8 P.aSetupRetr, setupRetrValue d c], 0)
  | .setAddressWidth n =>
    some ([regCommand 0x20#8 P.aSetupAw, BitVec.ofNat 8 (setupAwCode n.toNat)], 0)
  | .status | .dataAvailable | .interruptFlags => some ([regCommand 0x00#8 P.aStatus], 1)
  | .fifoFlags => some ([regCommand 0x00#8 P.aFifoStatus], 1)
  | .clearInterruptFlags => some ([regCommand 0x20#8 P.aStatus, 0x70#8], 0)
  | .receivedPower => some ([regCommand 0x00#8 P.aRpd], 1)
  | .observeTx => some ([regCommand 0x00#8 P.aObserveTx], 1)
  | .dynamicPayloadsEnabled | .ackPayloadsEnabled => some ([regCommand 0x00#8 0x1D#5], 1)
  | .crcLength | .setCrcLength _ | .addressWidth | .openReadingPipe _ _ | .closeReadingPipe _
  | .openWritingPipe _ | .write _ _ _ | .read | .init | .startListening | .stopListening
  | .teardown => none

/-! ## The discipline of the events (R92, R244) -/

/-- Where a trace stands: outside every frame, or in one, with how many bytes it has moved. -/
inductive FramePhase
  | outside | opened | sentOne | sentMore | reading
deriving DecidableEq, Repr

/-- The events allowed at each place. Frames do not nest, the enable line moves outside frames only (R92,
R244), bytes move inside frames only, and a frame that reads has written one byte, its command (R60). -/
def FramePhase.next : FramePhase → Event → Option FramePhase
  | .outside, .csAssert => some .opened
  | .outside, .ceHigh => some .outside
  | .outside, .ceLow => some .outside
  | .opened, .tx _ => some .sentOne
  | .sentOne, .tx _ => some .sentMore
  | .sentMore, .tx _ => some .sentMore
  | .sentOne, .rx _ => some .reading
  | .reading, .rx _ => some .reading
  | .opened, .csRelease => some .outside
  | .sentOne, .csRelease => some .outside
  | .sentMore, .csRelease => some .outside
  | .reading, .csRelease => some .outside
  | _, _ => none

/-- Where a trace stands at its end, if every event of it was allowed. -/
def scanFrames : FramePhase → List Event → Option FramePhase
  | p, [] => some p
  | p, e :: es => match p.next e with
    | some q => scanFrames q es
    | none => none

/-- The level of the enable line after a trace that began at `c`. -/
def enableAfter : Ce → List Event → Ce
  | c, [] => c
  | _, .ceHigh :: es => enableAfter .high es
  | _, .ceLow :: es => enableAfter .low es
  | c, .csAssert :: es | c, .csRelease :: es | c, .tx _ :: es | c, .rx _ :: es => enableAfter c es

/-! ## The invariant of the block -/

/-- What holds of the block between steps (R15, R17, R18, R19, R92, R226, R229, R244). -/
structure State.Inv (s : State) : Prop where
  /-- R92: no scope is open. -/
  csnReleased : s.csn = .released
  /-- R60, R92, R244: the events so far are whole frames and enable-line events between them. -/
  traceFramed : scanFrames .outside s.trace = some .outside
  /-- R19: `ce` is what the block last told the transport; LOW before it told anything. -/
  enableMatches : enableAfter .low s.trace = s.ce
  /-- R18: IDLE unless a `write` polls. -/
  fsmMatches : s.txFsm = if s.running.isSome then .pollFifo else .idle
  /-- R17: TRANSMITTING only between CE_HIGH and CE_LOW. -/
  notTransmitting : s.life ≠ .transmitting
  /-- R11, R15: of a size that `init` has loaded; before it the field has no value in the spec (R38, D6). -/
  sizeBound : s.life ≠ .uninitialized → s.dh.staticPayloadSize ≤ 32
  /-- R11. -/
  sizePositive : s.life.initialised = true → 1 ≤ s.dh.staticPayloadSize
  /-- R12, R15. -/
  widthRange : s.life.initialised = true → 2 ≤ s.dh.addressWidth ∧ s.dh.addressWidth ≤ 5
  /-- R13. -/
  cacheLength : ∀ a, s.dh.pipe0ReadingAddress = some a → 2 ≤ a.length ∧ a.length ≤ 5
  /-- R14. -/
  lineIdentities : s.dh.enablePin = s.params.enableLineId ∧ s.dh.chipSelect = s.params.chipSelectId
  /-- R226: the start time was read before. -/
  startBeforeNow : ∀ w, s.running = some w → w.t0 ≤ s.env.now
  /-- R17: a `write` runs in an initialised block. -/
  runningInitialised : s.running.isSome → s.life.initialised = true
  /-- R74: the response is absent while an operation runs. -/
  runningUnanswered : s.running.isSome → s.response = none

end Sys2Proof.Machine
end

