-- ==== Sys2Proof/Certificates/Slice0/Obligations.lean ====
section
/-! DEFINITION. The statements for the provers, in the order of the spec's files. Each docstring names the
rules it formalises. `s.after m n es r` is `s` with the events `es` emitted, the response `r` on the port and
`m` transport calls and `n` bytes drawn, and nothing else changed: a statement that ends in it is the
instruction's completion, its result and its frame at once. -/

open Sys2Proof Sys2Proof.Machine

/-! ## Reset and acceptance -/

/-- R38, R240, by the spec's decision D6: what reset leaves. The zeros of the two handle fields that have no
value in the spec are the model's choice (log entry 7) and are not stated. -/
def Obligations.ResetLeavesTheBlockUninitialised : Prop :=
  State.reset.life = .uninitialized ∧ State.reset.txFsm = .idle ∧ State.reset.csn = .released ∧
  State.reset.ce = .low ∧ State.reset.dh.pipe0ReadingAddress = none ∧ State.reset.running = none ∧
  State.reset.trace = [] ∧ State.reset.dh.enablePin = State.reset.params.enableLineId ∧
  State.reset.dh.chipSelect = State.reset.params.chipSelectId

/-- R17, R241, by the spec's decision D7: before `init` and after `teardown` every host operation but `init`
is refused, and `init` is taken. -/
def Obligations.OnlyInitIsAcceptedOutsideTheLifecycle : Prop :=
  ∀ s : State, s.life = .uninitialized ∨ s.life = .tornDown → s.running = none →
    (∀ i : Instr, i.space = .host → i ≠ .init → i.WellFormed → exec i s = .refused .notInitialised) ∧
    (1 ≤ s.params.staticPayloadSizeReq → ∃ t, exec .init s = .next t)

/-- R77, R217, R229, by the spec's decisions D3, D7 and D44: a second request while a `write` is running is
refused, and so is an instruction whose operands lie outside the listed values, with nothing running and
whatever else the state holds. Which reason is given where several apply is the model's choice (log entry 19),
and the bounds on the data of the bus commands are inferred from table B (log entry 15). -/
def Obligations.MeaninglessRequestsAreRefused : Prop :=
  ∀ (s : State) (i : Instr),
    (∀ w : PendingWrite, s.running = some w → exec i s = .refused .operationRunning) ∧
    (∀ r : IllFormed, s.running = none → i.illFormed? = some r → exec i s = .refused (.illFormed r))

/-- R77, R94, R95, R126, R127, R140, R142, R156, by the spec's decisions D3, D11, D19, D21 and D33: operands
outside their domains are refused, by `exec` where the instruction can be written, by the decoder where it
cannot; the bytes given to the decoder follow the model's layout (log entry 3), and a register operand is an
address or an identifier (log entry 11). -/
def Obligations.OperandsOutsideTheirDomainsAreRefused : Prop :=
  (∀ s : State, Ready s →
    (∀ (id : RegOperand) (n : BitVec 3), n.toNat = 0 ∨ 5 < n.toNat →
      exec (.readRegister id n) s = .refused (.illFormed .length)) ∧
    (∀ (id : RegOperand) (bs : List Byte), bs.length = 0 ∨ 5 < bs.length →
      exec (.writeRegister id (.bytes bs)) s = .refused (.illFormed .dataLength)) ∧
    (∀ n : BitVec 3, n.toNat < 2 ∨ 5 < n.toNat →
      exec (.setAddressWidth n) s = .refused (.illFormed .width)) ∧
    (∀ (p : Pipe) (a : List Byte), a.length = 0 ∨ 5 < a.length →
      exec (.openReadingPipe p a) s = .refused (.illFormed .addressLength)) ∧
    (∀ (p : Pipe) (a : List Byte), p.val ≤ 1 → 1 ≤ a.length → a.length ≤ 5 →
      a.length ≠ s.dh.addressWidth → exec (.openReadingPipe p a) s = .refused .addressLength) ∧
    (∀ a : List Byte, a.length < 2 ∨ 5 < a.length →
      exec (.openWritingPipe a) s = .refused (.illFormed .addressLength)) ∧
    (∀ a : List Byte, 2 ≤ a.length → a.length ≤ 5 → a.length ≠ s.dh.addressWidth →
      exec (.openWritingPipe a) s = .refused .addressLength)) ∧
  (∀ d c : Byte, 15 < d.toNat ∨ 15 < c.toNat → decode ⟨.host, [0x0E#8, d, c]⟩ = .error .nibble) ∧
  (∀ (p : Byte) (rest : List Byte), 5 < p.toNat →
    decode ⟨.host, 0x18#8 :: p :: rest⟩ = .error .pipe ∧ decode ⟨.host, [0x19#8, p]⟩ = .error .pipe ∧
    decode ⟨.host, 0x22#8 :: p :: rest⟩ = .error .pipe)

/-! ## Step, decode, encode -/

/-- R16, R47, R74, by the spec's decisions D2 and D3: a step runs the decoded instruction on the state with
its request taken; it refuses bytes that are no instruction, idles without a request (log entry 10), and
while a `write` is running it polls once more and looks at no request. -/
def Obligations.StepRunsTheDecodedInstruction : Prop :=
  (∀ (s : State) (rq : Request) (rest : List Request) (i : Instr),
    s.running = none → s.port = rq :: rest → decode rq = .ok i →
      step s = exec i { s with port := rest }) ∧
  (∀ (s : State) (rq : Request) (rest : List Request) (r : Reject),
    s.running = none → s.port = rq :: rest → decode rq = .error r →
      step s = .refused (.undecodable r)) ∧
  (∀ s : State, s.running = none → s.port = [] → step s = .next s) ∧
  (∀ (s : State) (w : PendingWrite), s.running = some w → step s = .next (pollOnce w s))

/-- R61 to R65, R75, R77: eleven words written out from the tables, one or more of each family and format, decode
to their instructions, and three words decode to none. That a listed command byte is an instruction by itself,
and a byte outside the table none, is the model's choice (log entry 2; R76 marks no command byte as illegal), as
is the pipe of 6 (log entry 29); the operand bytes follow the model's layout (log entry 3). -/
def Obligations.TableWordsDecodeToTheirInstructions : Prop :=
  decode ⟨.bus, [0b00000111#8, 2#8]⟩ = .ok (.cmdRRegister 7#5 1#3) ∧
  decode ⟨.bus, [0b00111101#8, 2#8, 6#8]⟩ = .ok (.cmdWRegister 0x1D#5 [6#8]) ∧
  decode ⟨.bus, [0b01100001#8, 4#8]⟩ = .ok (.cmdRRxPayload 4#8) ∧
  decode ⟨.bus, [0b10101011#8, 0xAA#8]⟩ = .ok (.cmdWAckPayload 3 [0xAA#8]) ∧
  decode ⟨.bus, [0b11100001#8]⟩ = .ok .cmdFlushTx ∧
  decode ⟨.bus, [0b10101110#8]⟩ = .error .pipe ∧
  decode ⟨.bus, [0b11000000#8]⟩ = .error .unknownCommand ∧
  decode ⟨.host, [0b000010#8, 0#8, 0xE1#8, 0#8]⟩ = .ok (.sendCommand (.opcode 0xE1#8) 0#8) ∧
  decode ⟨.host, [0b001000#8, 76#8]⟩ = .ok (.setChannel 76#8) ∧
  decode ⟨.host, [0b011001#8, 5#8]⟩ = .ok (.closeReadingPipe 5) ∧
  decode ⟨.host, [0b100001#8]⟩ = .ok .read ∧
  decode ⟨.host, [0b101010#8]⟩ = .ok .interruptFlags ∧
  decode ⟨.host, [0b111000#8]⟩ = .ok .init ∧
  decode ⟨.host, [0b000011#8]⟩ = .error .unknownOpSel

/-- R74, R75, R77: decoding gives back every well-formed instruction from its encoding, with every operand.
The layout of the operands is the model's choice (log entry 3). -/
def Obligations.DecodeOfEncodeIsTheInstruction : Prop :=
  ∀ i : Instr, i.WellFormed → decode (encode i) = .ok i

/-- R77, by the spec's decision D3: whatever bytes are on the port, what decodes is well-formed and of the
space asked for. -/
def Obligations.WhatDecodesIsWellFormed : Prop :=
  ∀ (rq : Request) (i : Instr), decode rq = .ok i → i.WellFormed ∧ i.space = rq.space

/-- R6, R23, R81: in an admissible parameter record the Register Map reads both ways, and so does the
command table; the defaults, which are general knowledge and not in the source (log entry 5), are admissible,
and a base of 0xA9 for W_ACK_PAYLOAD is not. -/
def Obligations.RegisterMapIsBidirectional : Prop :=
  (∀ P : Params, admissible P = true →
    (∀ id : RegisterId, registerAt P (addressOf P id) = some id) ∧
    (∀ c : CommandId, commandAt P (opcodeOf P c) = some c)) ∧
  admissible Params.defaults = true ∧
  (∀ P : Params, P.cWAckPayload = 0xA9#8 → admissible P = false)

/-! ## Field packing -/

/-- R28, R67, R68, R123, the disjoint datarates and the zero bits by the spec's decision D15: an RF_SETUP value
has bit 5 for 250 kbit/s alone and bit 3 for 2 Mbit/s alone, the code of its own level in bits 2:1, and bits 7,
6, 4 and 0 zero, and the datarate read back from it is the one it was composed from; the delay is in bits 7:4 of
a SETUP_RETR value and the count in bits 3:0. With the default codes, which are general knowledge (log entry 5,
K8), the values are those of the table of R67. -/
def Obligations.PackedFieldsAreRecovered : Prop :=
  (∀ (P : Params) (d : Datarate) (p : PowerLevel),
    datarateOf (rfSetupValue P d p) = d ∧
    bitOf (rfSetupValue P d p) 5 = decide (d = .rate250kbps) ∧
    bitOf (rfSetupValue P d p) 3 = decide (d = .rate2mbps) ∧
    fieldOf (rfSetupValue P d p) ⟨2, 1⟩ =
      (match p with
        | .min => P.pwrMin
        | .low => P.pwrLow
        | .high => P.pwrHigh
        | .max => P.pwrMax).toNat ∧
    bitOf (rfSetupValue P d p) 7 = false ∧ bitOf (rfSetupValue P d p) 6 = false ∧
    bitOf (rfSetupValue P d p) 4 = false ∧ bitOf (rfSetupValue P d p) 0 = false) ∧
  (∀ delay count : BitVec 4,
    fieldOf (setupRetrValue delay count) ⟨7, 4⟩ = delay.toNat ∧
    fieldOf (setupRetrValue delay count) ⟨3, 0⟩ = count.toNat) ∧
  ([PowerLevel.min, .low, .high, .max].map (rfSetupValue Params.defaults .rate250kbps) =
      [0x20#8, 0x22#8, 0x24#8, 0x26#8] ∧
    [PowerLevel.min, .low, .high, .max].map (rfSetupValue Params.defaults .rate1mbps) =
      [0x00#8, 0x02#8, 0x04#8, 0x06#8] ∧
    [PowerLevel.min, .low, .high, .max].map (rfSetupValue Params.defaults .rate2mbps) =
      [0x08#8, 0x0A#8, 0x0C#8, 0x0E#8])

/-- R26, R71: setting a pipe's mask sets its bit and no other; clearing it clears its bit and no other. -/
def Obligations.PipeMaskTouchesExactlyItsBit : Prop :=
  ∀ (v : Byte) (p : Pipe) (k : BitNo),
    bitOf (v ||| pipeMask p) k = (bitOf v k || decide (k.val = p.val)) ∧
    bitOf (v &&& ~~~pipeMask p) k = (bitOf v k && !decide (k.val = p.val))

/-! ## Bus commands -/

/-- R100, R102, R105, run by themselves as the model lets them (log entry 2): the reading commands of the
bus emit their command byte and take out their bytes. -/
def Obligations.BusReadCommandsEmitTheirFrame : Prop :=
  ∀ s : State, Idle s → IoOk 2 s →
    (∀ (a : RegAddr) (n : BitVec 3), 1 ≤ n.toNat → n.toNat ≤ 5 →
      exec (.cmdRRegister a n) s =
        .next (s.after 2 n.toNat (readFrame a (answers 0 n.toNat s)) (.ok (.bytes (answers 0 n.toNat s))))) ∧
    (∀ n : Byte, n ≠ 0#8 →
      exec (.cmdRRxPayload n) s =
        .next (s.after 2 n.toNat (busFrame [0x61#8] (answers 0 n.toNat s))
          (.ok (.bytes (answers 0 n.toNat s))))) ∧
    exec (.cmdRRxPayload 0#8) s = .next (s.after 1 0 (busFrame [0x61#8] []) (.ok (.bytes []))) ∧
    exec .cmdRRxPlWid s =
      .next (s.after 2 1 (busFrame [s.params.cRRxPlWid] [answer 0 s]) (.ok (.bytes [answer 0 s])))

/-- R101, R103, R104, R106, run by themselves as the model lets them (log entry 2): the writing commands of
the bus emit their command byte and their data. -/
def Obligations.BusWriteCommandsEmitTheirFrame : Prop :=
  ∀ (s : State) (data : List Byte), Idle s → IoOk 1 s →
    (∀ a : RegAddr, 1 ≤ data.length → data.length ≤ 5 →
      exec (.cmdWRegister a data) s = .next (s.after 1 0 (writeFrame a data) (.ok .nothing))) ∧
    (data.length ≤ 32 →
      exec (.cmdWTxPayload data) s =
        .next (s.after 1 0 (busFrame (s.params.cWTxPayload :: data) []) (.ok .nothing)) ∧
      exec (.cmdWTxPayloadNoack data) s =
        .next (s.after 1 0 (busFrame (s.params.cWTxPayloadNoack :: data) []) (.ok .nothing)) ∧
      ∀ p : Pipe, exec (.cmdWAckPayload p data) s =
        .next (s.after 1 0 (busFrame ((s.params.cWAckPayload ||| BitVec.ofNat 8 p.val) :: data) [])
          (.ok .nothing)))

/-- R107 to R111, run by themselves as the model lets them (log entry 2): the flushes, the reuse command and
NOP are their command byte alone; ACTIVATE is followed by its argument bytes. -/
def Obligations.BusPlainCommandsEmitTheirByte : Prop :=
  ∀ s : State, Idle s → IoOk 1 s →
    exec .cmdFlushTx s = .next (s.after 1 0 (busFrame [0xE1#8] []) (.ok .nothing)) ∧
    exec .cmdFlushRx s = .next (s.after 1 0 (busFrame [0xE2#8] []) (.ok .nothing)) ∧
    exec .cmdReuseTxPl s = .next (s.after 1 0 (busFrame [s.params.cReuseTxPl] []) (.ok .nothing)) ∧
    exec .cmdActivate s =
      .next (s.after 1 0 (busFrame (0x50#8 :: s.params.activateArg) []) (.ok .nothing)) ∧
    exec .cmdNop s = .next (s.after 1 0 (busFrame [0xFF#8] []) (.ok .nothing))

/-! ## The contract operations -/

/-- R62, R76, R81, R94: `read_register` with a length of 1 to 5 emits the read command ORed with the address and
takes that many bytes, which are its result. The address is any one, or that of an identifier; that the operand
is one or the other is the model's way to hold R76 and R81 (log entry 11). -/
def Obligations.ReadRegisterReadsItsBytes : Prop :=
  ∀ (s : State) (r : RegOperand) (n : BitVec 3), Ready s → 1 ≤ n.toNat → n.toNat ≤ 5 → IoOk 2 s →
    exec (.readRegister r n) s =
      .next (s.after 2 n.toNat
        (readFrame (match r with
            | .named id => addressOf s.params id
            | .address a => a)
          (answers 0 n.toNat s))
        (.ok (.bytes (answers 0 n.toNat s))))

/-- R63, R76, R81, R95: `write_register` emits the write command ORed with the address and then the value, one
byte or a sequence of 1 to 5. The address is any one, or that of an identifier; that the operand is one or the
other is the model's way to hold R76 and R81 (log entry 11). -/
def Obligations.WriteRegisterWritesItsBytes : Prop :=
  ∀ (s : State) (r : RegOperand) (v : RegValue), Ready s → IoOk 1 s →
    (match v with
      | .byte _ => True
      | .bytes bs => 1 ≤ bs.length ∧ bs.length ≤ 5) →
    exec (.writeRegister r v) s =
      .next (s.after 1 0
        (writeFrame (match r with
            | .named id => addressOf s.params id
            | .address a => a)
          (match v with
            | .byte b => [b]
            | .bytes bs => bs))
        (.ok .nothing))

/-- R76, R81, R96: `send_command` emits any op-code unchanged, and the op-code of an identifier in its place;
its result is absent where no response is asked for. That the operand is one or the other is the model's way
to hold both rules (log entry 11). -/
def Obligations.SendCommandEmitsTheOpcode : Prop :=
  ∀ (s : State) (cmd : CmdOperand) (c n : Byte), Ready s →
    c = (match cmd with
      | .named id => opcodeOf s.params id
      | .opcode b => b) →
    (IoOk 1 s →
      exec (.sendCommand cmd 0#8) s = .next (s.after 1 0 (busFrame [c] []) (.ok .nothing))) ∧
    (n ≠ 0#8 → IoOk 2 s →
      exec (.sendCommand cmd n) s =
        .next (s.after 2 n.toNat (busFrame [c] (answers 0 n.toNat s)) (.ok (.bytes (answers 0 n.toNat s)))))

/-- R92, R112, R214, by the spec's decision D10 and, for the bus commands, log entry 2: every instruction
that is one frame ends at a failed call of it, with the frame closed, the transport's report on the port,
and nothing else changed. That a failed `read_bytes` shows no byte read is inferred from R90, R91 and the vector
V40.15 (log entry 14). -/
def Obligations.OneFrameInstructionsPropagateTransportFailure : Prop :=
  ∀ (s : State) (i : Instr) (tx : List Byte) (n sent report : Nat),
    Idle s → (i.space = .bus ∨ s.life.initialised = true) → i.WellFormed →
    soleFrame s.params i = some (tx, n) →
    (s.env.io s.env.ioCount = .fail sent report →
      exec i s = .next (s.after 1 0 (brokenFrame tx sent) (.transportFailure report))) ∧
    (n ≠ 0 → IoOk 1 s → s.env.io (s.env.ioCount + 1) = .fail sent report →
      exec i s = .next (s.after 2 0 (busFrame tx []) (.transportFailure report)))

/-! ## Configuration -/

/-- R120, above channel 125 by the spec's decision D14: `set_channel` writes any byte unchanged. -/
def Obligations.SetChannelWritesTheByte : Prop :=
  ∀ (s : State) (ch : Byte), Ready s → IoOk 1 s →
    exec (.setChannel ch) s = .next (s.after 1 0 (writeFrame s.params.aRfCh [ch]) (.ok .nothing))

/-- R121, R170: `channel` and `status` answer the byte as it is read. -/
def Obligations.ChannelAndStatusAnswerTheByteRead : Prop :=
  ∀ s : State, Ready s → IoOk 2 s →
    exec .channel s =
      .next (s.after 2 1 (readFrame s.params.aRfCh [answer 0 s]) (.ok (.byte (answer 0 s)))) ∧
    exec .status s =
      .next (s.after 2 1 (readFrame s.params.aStatus [answer 0 s]) (.ok (.byte (answer 0 s))))

/-- R67, R122, R215, the packed value by the spec's decision D15: `rf_setup` writes and answers the packed value
when both symbols are recognised; else it answers ConfigRejected with no event, the datarate and the power
being tested alike. The numeric powers stand for their levels and no other number does. -/
def Obligations.RfSetupWritesOrRejects : Prop :=
  ∀ s : State, Ready s →
    (∀ (d : DatarateArg) (p : PowerArg) (dr : Datarate) (pw : PowerLevel) (drBits : Byte) (code : BitVec 2),
      datarateSymbol d = some dr → powerSymbol p = some pw → IoOk 1 s →
      drBits = (match dr with
        | .rate250kbps => 0x20#8
        | .rate1mbps => 0x00#8
        | .rate2mbps => 0x08#8) →
      code = (match pw with
        | .min => s.params.pwrMin
        | .low => s.params.pwrLow
        | .high => s.params.pwrHigh
        | .max => s.params.pwrMax) →
      exec (.rfSetup d p) s =
        .next (s.after 1 0 (writeFrame s.params.aRfSetup [drBits ||| (code.setWidth 8 <<< 1)])
          (.ok (.byte (drBits ||| (code.setWidth 8 <<< 1)))))) ∧
    (∀ (d : DatarateArg) (p : PowerArg), datarateSymbol d = none ∨ powerSymbol p = none →
      exec (.rfSetup d p) s = .next (s.after 0 0 [] .configRejected)) ∧
    (∀ d : Datarate, datarateSymbol (.known d) = some d) ∧ datarateSymbol .other = none ∧
    (∀ p : PowerLevel, powerSymbol (.level p) = some p) ∧ powerSymbol .other = none ∧
    powerSymbol (.number (-18)) = some .min ∧ powerSymbol (.number (-12)) = some .low ∧
    powerSymbol (.number (-6)) = some .high ∧ powerSymbol (.number 0) = some .max ∧
    (∀ z : Int, z ≠ -18 → z ≠ -12 → z ≠ -6 → z ≠ 0 → powerSymbol (.number z) = none)

/-- R123: `datarate` answers by bit 5, then bit 3. -/
def Obligations.DatarateAnswersByPrecedence : Prop :=
  ∀ s : State, Ready s → IoOk 2 s →
    exec .datarate s =
      .next (s.after 2 1 (readFrame s.params.aRfSetup [answer 0 s])
        (.ok (.datarate
          (if (answer 0 s).getLsbD 5 then .rate250kbps
            else if (answer 0 s).getLsbD 3 then .rate2mbps else .rate1mbps))))

/-- R124, both reads by the spec's decision D17: `crc_length` reads CONFIG and then the auto-ack register,
always both. -/
def Obligations.CrcLengthReadsBothRegisters : Prop :=
  ∀ s : State, Ready s → IoOk 4 s →
    exec .crcLength s =
      .next (s.after 4 2
        (readFrame 0x00#5 [answer 0 s] ++ readFrame s.params.aEnAa [answer 1 s])
        (.ok (.crc
          (if (answer 0 s).getLsbD s.params.bEnCrc.val = true ∨ (answer 1 s &&& 0x3F#8) ≠ 0#8 then
            if (answer 0 s).getLsbD s.params.bCrco.val then .crc16 else .crc8
          else .none))))

/-- R125, any other operand by the spec's decision D18: `set_crc_length` reads CONFIG and writes it back
with the two CRC bits as the operand says and the other six as read. -/
def Obligations.SetCrcLengthRewritesConfig : Prop :=
  (∀ (s : State) (len : CrcArg), Ready s → IoOk 3 s →
    exec (.setCrcLength len) s =
      .next (s.after 3 1
        (readFrame 0x00#5 [answer 0 s] ++
          writeFrame 0x00#5 [withCrc s.params (crcSymbol len) (answer 0 s)])
        (.ok .nothing))) ∧
  (∀ (P : Params) (m : CrcMode) (v : Byte) (k : BitNo), P.bEnCrc ≠ P.bCrco →
    bitOf (withCrc P m v) k =
      if k = P.bEnCrc then decide (m ≠ .none)
      else if k = P.bCrco then decide (m = .crc16) else bitOf v k) ∧
  (∀ n : Int, crcSymbol (.number n) =
    if n = 16 ∨ n = 2 then .crc16 else if n = 8 ∨ n = 1 then .crc8 else .none) ∧
  crcSymbol .crc16 = .crc16 ∧ crcSymbol .crc8 = .crc8 ∧ crcSymbol .other = .none

/-- R68: `set_retries` writes delay and count packed into one byte, without a read. -/
def Obligations.SetRetriesWritesThePackedByte : Prop :=
  ∀ (s : State) (delay count : BitVec 4), Ready s → IoOk 1 s →
    exec (.setRetries delay count) s =
      .next (s.after 1 0
        (writeFrame s.params.aSetupRetr [(delay.setWidth 8 <<< 4) ||| count.setWidth 8]) (.ok .nothing))

/-- R69, R127, R214, by the spec's decision D10: `set_address_width` writes the code and then caches the
width; on a failed write it keeps the old width. -/
def Obligations.SetAddressWidthWritesThenCaches : Prop :=
  ∀ (s : State) (n : BitVec 3), Ready s → 2 ≤ n.toNat → n.toNat ≤ 5 →
    (IoOk 1 s →
      exec (.setAddressWidth n) s =
        .next { s.after 1 0 (writeFrame s.params.aSetupAw [BitVec.ofNat 8 (n.toNat - 2)]) (.ok .nothing) with
                dh := { s.dh with addressWidth := n.toNat } }) ∧
    (∀ sent report, s.env.io s.env.ioCount = .fail sent report →
      ∃ t, exec (.setAddressWidth n) s = .next t ∧ t.dh = s.dh ∧
        t.response = some (.transportFailure report))

/-- R128: `address_width` answers the cached width with no bus activity. -/
def Obligations.AddressWidthAnswersTheCache : Prop :=
  ∀ s : State, Ready s →
    exec .addressWidth s = .next (s.after 0 0 [] (.ok (.width s.dh.addressWidth)))

/-! ## Pipes -/

/-- R140, the order by the spec's decision D22: opening pipe 0 or 1 writes the full address, the payload
width and the enable bit, and pipe 0's address is cached. -/
def Obligations.OpenReadingPipeFullAddress : Prop :=
  ∀ (s : State) (p : Pipe) (a : List Byte), Ready s → p.val ≤ 1 → 1 ≤ a.length → a.length ≤ 5 →
    a.length = s.dh.addressWidth → IoOk 5 s →
    exec (.openReadingPipe p a) s =
      .next { s.after 5 1
                (writeFrame s.params.aRxAddrP[p] a ++
                  writeFrame s.params.aRxPwP[p] [BitVec.ofNat 8 s.dh.staticPayloadSize] ++
                  readFrame s.params.aEnRxaddr [answer 0 s] ++
                  writeFrame s.params.aEnRxaddr [answer 0 s ||| 1#8 <<< p.val])
                (.ok .nothing) with
              dh := { s.dh with pipe0ReadingAddress :=
                        if p.val = 0 then some a else s.dh.pipe0ReadingAddress } }

/-- R42, R140, the byte by the spec's conflict C1 and decision D21: opening pipe 2 to 5 writes the first
byte of the address alone, and caches nothing. -/
def Obligations.OpenReadingPipeFirstByte : Prop :=
  ∀ (s : State) (p : Pipe) (a0 : Byte) (rest : List Byte), Ready s → 2 ≤ p.val → rest.length ≤ 4 →
    IoOk 5 s →
    exec (.openReadingPipe p (a0 :: rest)) s =
      .next (s.after 5 1
        (writeFrame s.params.aRxAddrP[p] [a0] ++
          writeFrame s.params.aRxPwP[p] [BitVec.ofNat 8 s.dh.staticPayloadSize] ++
          readFrame s.params.aEnRxaddr [answer 0 s] ++
          writeFrame s.params.aEnRxaddr [answer 0 s ||| 1#8 <<< p.val])
        (.ok .nothing))

/-- R140, R214, by the spec's decision D10: if the address transaction fails the cache is unchanged and
nothing more is emitted. -/
def Obligations.OpenReadingPipeFailureKeepsTheCache : Prop :=
  ∀ (s : State) (p : Pipe) (a : List Byte) (sent report : Nat), Ready s → p.val ≤ 1 →
    1 ≤ a.length → a.length ≤ 5 → a.length = s.dh.addressWidth →
    s.env.io s.env.ioCount = .fail sent report →
    exec (.openReadingPipe p a) s =
      .next (s.after 1 0 (brokenFrame ((0x20#8 ||| (s.params.aRxAddrP[p]).setWidth 8) :: a) sent)
        (.transportFailure report))

/-- R141, the kept cache by the spec's decision D20: closing a pipe reads EN_RXADDR and writes it back
without the pipe's bit; the cache is kept. -/
def Obligations.CloseReadingPipeClearsItsBit : Prop :=
  ∀ (s : State) (p : Pipe), Ready s → IoOk 3 s →
    exec (.closeReadingPipe p) s =
      .next (s.after 3 1
        (readFrame s.params.aEnRxaddr [answer 0 s] ++
          writeFrame s.params.aEnRxaddr [answer 0 s &&& ~~~(1#8 <<< p.val)])
        (.ok .nothing))

/-- R142, the order by the spec's decision D23: the writing pipe's address goes to RX_ADDR_P0 and TX_ADDR,
then the payload width of pipe 0; the cache and EN_RXADDR are not touched. -/
def Obligations.OpenWritingPipeMirrorsTheAddress : Prop :=
  ∀ (s : State) (a : List Byte), Ready s → 2 ≤ a.length → a.length ≤ 5 →
    a.length = s.dh.addressWidth → IoOk 3 s →
    exec (.openWritingPipe a) s =
      .next (s.after 3 0
        (writeFrame s.params.aRxAddrP[0] a ++ writeFrame s.params.aTxAddr a ++
          writeFrame s.params.aRxPwP[0] [BitVec.ofNat 8 s.dh.staticPayloadSize])
        (.ok .nothing))

/-! ## Transmit -/

/-- R150, R152, R153, R154, by the spec's decisions D24, D25, D27 and D28: with room in the FIFO and a payload
that fits, `write` sends it, padded to the static size in static mode and as it is in dynamic mode, with the
command of its mode, pulses the enable line and answers `:ok` in STANDBY. -/
def Obligations.WriteSendsAPayloadThatFits : Prop :=
  ∀ (s : State) (payload : List Byte) (mode : AckMode) (timeout : Option Nat), Ready s → IoOk 5 s →
    bitOf (answer 0 s) 0 = false →
    (bitOf (answer 1 s) s.params.bEnDpl = true → payload.length ≤ 32) →
    (bitOf (answer 1 s) s.params.bEnDpl = false → payload.length ≤ s.dh.staticPayloadSize) →
    exec (.write payload mode timeout) s =
      .next { s.readClock.after 5 2
                (readFrame s.params.aStatus [answer 0 s] ++ readFrame 0x1D#5 [answer 1 s] ++
                  busFrame
                    ((match mode with
                      | .ack => s.params.cWTxPayload
                      | .noAck => s.params.cWTxPayloadNoack) ::
                      (if bitOf (answer 1 s) s.params.bEnDpl then payload
                        else payload ++ List.replicate (s.dh.staticPayloadSize - payload.length) 0#8))
                    [] ++
                  [.ceHigh, .ceLow])
                (.ok .okSymbol) with
              ce := .low, life := .standby }

/-- R152, R211, R223, by the spec's conflict C2 and decisions D24 and D40: with room in the FIFO a payload
above its limit, 32 in dynamic mode and the static size otherwise, is raised after the FEATURE read and before
any of it is written. -/
def Obligations.WriteRaisesOversizedPayload : Prop :=
  ∀ (s : State) (payload : List Byte) (mode : AckMode) (timeout : Option Nat),
    Ready s → IoOk 4 s → bitOf (answer 0 s) 0 = false →
    (bitOf (answer 1 s) s.params.bEnDpl = true → 32 < payload.length →
      exec (.write payload mode timeout) s =
        .next (s.readClock.after 4 2
          (readFrame s.params.aStatus [answer 0 s] ++ readFrame 0x1D#5 [answer 1 s])
          (.oversizedPayload payload.length 32))) ∧
    (bitOf (answer 1 s) s.params.bEnDpl = false → s.dh.staticPayloadSize < payload.length →
      exec (.write payload mode timeout) s =
        .next (s.readClock.after 4 2
          (readFrame s.params.aStatus [answer 0 s] ++ readFrame 0x1D#5 [answer 1 s])
          (.oversizedPayload payload.length s.dh.staticPayloadSize)))

/-- R151, R213, R223, by the spec's decision D25: TX_FULL and MAX_RT in the same status byte: MAX_RT alone
is cleared and the result returned, whatever the payload and the timeout; no payload is written and the
enable line is not pulsed. -/
def Obligations.WriteReportsMaxRetransmits : Prop :=
  ∀ (s : State) (payload : List Byte) (mode : AckMode) (timeout : Option Nat), Ready s → IoOk 3 s →
    bitOf (answer 0 s) 0 = true → bitOf (answer 0 s) 4 = true →
    exec (.write payload mode timeout) s =
      .next (s.readClock.after 3 1
        (readFrame s.params.aStatus [answer 0 s] ++ writeFrame s.params.aStatus [0x10#8])
        .maxRetransmitsReached)

/-- R151, R212, R223, by the spec's decision D25: TX_FULL without MAX_RT: past the timeout the operation is
raised out of, having read STATUS and nothing else; within it the operation stays running and has answered
nothing (log entry 8). -/
def Obligations.WriteTimesOutOrKeepsPolling : Prop :=
  ∀ (s : State) (payload : List Byte) (mode : AckMode) (timeout : Option Nat), Ready s → IoOk 2 s →
    FullNoMaxRt (answer 0 s) →
    (timeout.getD s.params.timeoutDefault < s.env.tick (s.env.tickCount + 1) →
      exec (.write payload mode timeout) s =
        .next (s.readClock.readClock.after 2 1 (readFrame s.params.aStatus [answer 0 s]) .transmitTimeout)) ∧
    (s.env.tick (s.env.tickCount + 1) ≤ timeout.getD s.params.timeoutDefault →
      exec (.write payload mode timeout) s =
        .next { s.readClock.readClock.after 2 1 (readFrame s.params.aStatus [answer 0 s])
                  .transmitTimeout with
                response := none, txFsm := .pollFifo
                running := some { payload := payload, ackMode := mode
                                  timeout := timeout.getD s.params.timeoutDefault
                                  t0 := s.env.now + s.env.tick s.env.tickCount } })

/-- R150 to R154, R211 to R214, R223, by the spec's decisions D10, D24 to D28 and D40, conflict C2 and log
entry 8: the first iteration of a `write` is a polling step of the `write` it starts, and every polling step
tests the room first, then MAX_RT, then the time, else polls on; with room it sends a payload that fits, in
static and in dynamic mode, and raises OversizedPayload on any other; and it ends at a failed transport call.
`s.ended m n es r` has the draws of `m` calls and `n` bytes in `env`, chip-select as before, released, and the
enable line, `life` and the DeviceHandle as before unless said. The bytes of a failed `read_bytes`: log entry
14. -/
def Obligations.PollingStepTestsInOrder : Prop :=
  (∀ (s : State) (payload : List Byte) (mode : AckMode) (timeout : Option Nat), Ready s →
    exec (.write payload mode timeout) s =
      step { s.readClock with
             response := none, txFsm := .pollFifo
             running := some { payload := payload, ackMode := mode
                               timeout := timeout.getD s.params.timeoutDefault
                               t0 := s.env.now + s.env.tick s.env.tickCount } }) ∧
  (∀ (s : State) (w : PendingWrite), Polling w s →
    (IoOk 2 s → FullNoMaxRt (answer 0 s) → nowAfter 1 s - w.t0 ≤ w.timeout →
      step s =
        .next { s with trace := s.trace ++ readFrame s.params.aStatus [answer 0 s]
                       env := (s.env.took 2 1).ticked }) ∧
    (IoOk 2 s → FullNoMaxRt (answer 0 s) → w.timeout < nowAfter 1 s - w.t0 →
      step s =
        .next (s.readClock.ended 2 1 (readFrame s.params.aStatus [answer 0 s]) .transmitTimeout)) ∧
    (IoOk 3 s → bitOf (answer 0 s) 0 = true → bitOf (answer 0 s) 4 = true →
      step s =
        .next (s.ended 3 1
          (readFrame s.params.aStatus [answer 0 s] ++ writeFrame s.params.aStatus [0x10#8])
          .maxRetransmitsReached)) ∧
    (IoOk 5 s → bitOf (answer 0 s) 0 = false → w.payload.length ≤ sizeLimit (answer 1 s) s →
      step s =
        .next { s.ended 5 2
                  (readFrame s.params.aStatus [answer 0 s] ++ readFrame 0x1D#5 [answer 1 s] ++
                    busFrame (payloadBytes w.ackMode w.payload (answer 1 s) s) [] ++ [.ceHigh, .ceLow])
                  (.ok .okSymbol) with
                ce := .low, life := .standby }) ∧
    (IoOk 4 s → bitOf (answer 0 s) 0 = false → sizeLimit (answer 1 s) s < w.payload.length →
      step s =
        .next (s.ended 4 2
          (readFrame s.params.aStatus [answer 0 s] ++ readFrame 0x1D#5 [answer 1 s])
          (.oversizedPayload w.payload.length (sizeLimit (answer 1 s) s))))) ∧
  (∀ (s : State) (w : PendingWrite) (sent report : Nat), Polling w s →
    (s.env.io s.env.ioCount = .fail sent report →
      step s =
        .next (s.ended 1 0 (brokenFrame [0x00#8 ||| s.params.aStatus.setWidth 8] sent)
          (.transportFailure report))) ∧
    (IoOk 1 s → s.env.io (s.env.ioCount + 1) = .fail sent report →
      step s = .next (s.ended 2 0 (readFrame s.params.aStatus []) (.transportFailure report))) ∧
    (IoOk 2 s → s.env.io (s.env.ioCount + 2) = .fail sent report →
      (bitOf (answer 0 s) 0 = true → bitOf (answer 0 s) 4 = true →
        step s =
          .next (s.ended 3 1
            (readFrame s.params.aStatus [answer 0 s] ++
              brokenFrame [0x20#8 ||| s.params.aStatus.setWidth 8, 0x10#8] sent)
            (.transportFailure report))) ∧
      (bitOf (answer 0 s) 0 = false →
        step s =
          .next (s.ended 3 1
            (readFrame s.params.aStatus [answer 0 s] ++ brokenFrame [0x1D#8] sent)
            (.transportFailure report)))) ∧
    (IoOk 3 s → s.env.io (s.env.ioCount + 3) = .fail sent report → bitOf (answer 0 s) 0 = false →
      step s =
        .next (s.ended 4 1
          (readFrame s.params.aStatus [answer 0 s] ++ readFrame 0x1D#5 [])
          (.transportFailure report))) ∧
    (IoOk 4 s → s.env.io (s.env.ioCount + 4) = .fail sent report → bitOf (answer 0 s) 0 = false →
      w.payload.length ≤ sizeLimit (answer 1 s) s →
      step s =
        .next (s.ended 5 2
          (readFrame s.params.aStatus [answer 0 s] ++ readFrame 0x1D#5 [answer 1 s] ++
            brokenFrame (payloadBytes w.ackMode w.payload (answer 1 s) s) sent)
          (.transportFailure report))))

/-- R151, R226, by the spec's decisions D25 and D30 and log entry 8: if the FIFO stays full without MAX_RT
and the clock passes the deadline at some iteration, the polling loop ends with TransmitTimeout at or before
it, having emitted reads of STATUS alone. The premise on the clock is the fairness assumption of R226. -/
def Obligations.PollingEndsOnceTheClockPassesTheDeadline : Prop :=
  ∀ (s : State) (w : PendingWrite) (n : Nat), Polling w s → IoOk (2 * (n + 1)) s →
    (∀ j, j ≤ n → FullNoMaxRt (answer j s)) → w.timeout < nowAfter (n + 1) s - w.t0 →
    ∃ k t, 1 ≤ k ∧ k ≤ n + 1 ∧ Host.Core.run Sys2Proof.core k s = .next t ∧
      t.response = some .transmitTimeout ∧ t.running = none ∧ t.txFsm = .idle ∧ t.ce = s.ce ∧
      t.life = s.life ∧ t.dh = s.dh ∧
      t.trace = s.trace ++
        (List.range k).flatMap fun j => readFrame s.params.aStatus [answer j s]

/-- R218: a `write` that ends with anything but `:ok`, or goes on polling, has not touched the enable line,
`life` or the DeviceHandle: in its first iteration, which is `exec`, and in every later one, which is a step of
the running `write` (log entry 8). -/
def Obligations.FailedWriteNeverTouchesTheEnableLine : Prop :=
  ∀ s t : State,
    (∃ payload mode timeout, exec (.write payload mode timeout) s = .next t) ∨
      (∃ w, s.running = some w ∧ step s = .next t) →
    t.response ≠ some (.ok .okSymbol) →
    t.ce = s.ce ∧ t.life = s.life ∧ t.dh = s.dh ∧
    ∃ es, t.trace = s.trace ++ es ∧ Event.ceHigh ∉ es ∧ Event.ceLow ∉ es

/-! ## Receive, acknowledge payload, flushes -/

/-- R155, the mode and an unchecked width by the spec's decisions D24 and D29: `read` takes its length from
the width command in dynamic mode and from the static size otherwise, reads that many bytes, and clears the
three flags exactly once, last. -/
def Obligations.ReadExtractsOnePayload : Prop :=
  ∀ s : State, Ready s →
    (IoOk 5 s → bitOf (answer 0 s) s.params.bEnDpl = false → s.dh.staticPayloadSize ≠ 0 →
      exec .read s =
        .next (s.after 5 (1 + s.dh.staticPayloadSize)
          (readFrame 0x1D#5 [answer 0 s] ++
            busFrame [0x61#8] (answers 1 s.dh.staticPayloadSize s) ++
            writeFrame s.params.aStatus [0x70#8])
          (.ok (.bytes (answers 1 s.dh.staticPayloadSize s))))) ∧
    (IoOk 7 s → bitOf (answer 0 s) s.params.bEnDpl = true → answer 1 s ≠ 0#8 →
      exec .read s =
        .next (s.after 7 (2 + (answer 1 s).toNat)
          (readFrame 0x1D#5 [answer 0 s] ++ busFrame [s.params.cRRxPlWid] [answer 1 s] ++
            busFrame [0x61#8] (answers 2 (answer 1 s).toNat s) ++
            writeFrame s.params.aStatus [0x70#8])
          (.ok (.bytes (answers 2 (answer 1 s).toNat s))))) ∧
    (IoOk 6 s → bitOf (answer 0 s) s.params.bEnDpl = true → answer 1 s = 0#8 →
      exec .read s =
        .next (s.after 6 2
          (readFrame 0x1D#5 [answer 0 s] ++ busFrame [s.params.cRRxPlWid] [answer 1 s] ++
            busFrame [0x61#8] [] ++ writeFrame s.params.aStatus [0x70#8])
          (.ok (.bytes []))))

/-- R156, R160, by the spec's decision D33: `set_ack_payload` writes a payload of at most 32 bytes unpadded,
and a longer one is raised before any event; `reuse_tx_payload` sends the declared command and nothing else.
-/
def Obligations.AckPayloadAndReuseSendOneFrame : Prop :=
  ∀ (s : State) (p : Pipe) (payload : List Byte), Ready s →
    (payload.length ≤ 32 → IoOk 1 s →
      exec (.setAckPayload p payload) s =
        .next (s.after 1 0 (busFrame ((s.params.cWAckPayload ||| BitVec.ofNat 8 p.val) :: payload) [])
          (.ok .nothing))) ∧
    (32 < payload.length →
      exec (.setAckPayload p payload) s = .next (s.after 0 0 [] (.oversizedPayload payload.length 32))) ∧
    (IoOk 1 s →
      exec .reuseTxPayload s = .next (s.after 1 0 (busFrame [s.params.cReuseTxPl] []) (.ok .nothing)))

/-- R157, R158: the two flushes are one command byte each. -/
def Obligations.FlushesAreOneByte : Prop :=
  ∀ s : State, Ready s → IoOk 1 s →
    exec .flushTx s = .next (s.after 1 0 (busFrame [0xE1#8] []) (.ok .nothing)) ∧
    exec .flushRx s = .next (s.after 1 0 (busFrame [0xE2#8] []) (.ok .nothing))

/-! ## Status -/

/-- R171, by the spec's decision D34: `data_available?` answers the pipe of RX_P_NO, false for 7, and
refuses the unused 6. -/
def Obligations.DataAvailableAnswersThePipe : Prop :=
  ∀ (s : State) (p : Nat), Ready s → IoOk 2 s → p = ((answer 0 s).toNat / 2) % 8 →
    (p ≤ 5 → exec .dataAvailable s =
      .next (s.after 2 1 (readFrame s.params.aStatus [answer 0 s]) (.ok (.pipe p)))) ∧
    (p = 7 → exec .dataAvailable s =
      .next (s.after 2 1 (readFrame s.params.aStatus [answer 0 s]) (.ok .notAvailable))) ∧
    (p = 6 → exec .dataAvailable s = .refused .rxPNoUnused)

/-- R172: `interrupt_flags` answers bits 6, 5 and 4 of one STATUS byte. -/
def Obligations.InterruptFlagsAnswerThreeBits : Prop :=
  ∀ s : State, Ready s → IoOk 2 s →
    exec .interruptFlags s =
      .next (s.after 2 1 (readFrame s.params.aStatus [answer 0 s])
        (.ok (.interrupts
          ⟨(answer 0 s).getLsbD 6, (answer 0 s).getLsbD 5, (answer 0 s).getLsbD 4⟩)))

/-- R173: `fifo_flags` answers four bits of one FIFO_STATUS byte. -/
def Obligations.FifoFlagsAnswerFourBits : Prop :=
  ∀ s : State, Ready s → IoOk 2 s →
    exec .fifoFlags s =
      .next (s.after 2 1 (readFrame s.params.aFifoStatus [answer 0 s])
        (.ok (.fifo
          ⟨(answer 0 s).getLsbD s.params.bFsRxEmpty.val, (answer 0 s).getLsbD s.params.bFsRxFull.val,
            (answer 0 s).getLsbD s.params.bFsTxEmpty.val, (answer 0 s).getLsbD s.params.bFsTxFull.val⟩)))

/-- R174: `clear_interrupt_flags` is one write of 0x70 and no read. -/
def Obligations.ClearInterruptFlagsWritesOnce : Prop :=
  ∀ s : State, Ready s → IoOk 1 s →
    exec .clearInterruptFlags s =
      .next (s.after 1 0 (writeFrame s.params.aStatus [0x70#8]) (.ok .nothing))

/-- R175, by the spec's decision D35: `received_power` answers whether RPD reads nonzero. -/
def Obligations.ReceivedPowerAnswersNonzero : Prop :=
  ∀ s : State, Ready s → IoOk 2 s →
    exec .receivedPower s =
      .next (s.after 2 1 (readFrame s.params.aRpd [answer 0 s])
        (.ok (.boolean (decide (answer 0 s ≠ 0#8)))))

/-- R176, by the spec's decision D35: `observe_tx` answers the two fields of one byte; with the default
fields, its two nibbles. -/
def Obligations.ObserveTxAnswersTwoFields : Prop :=
  (∀ s : State, Ready s → IoOk 2 s →
    exec .observeTx s =
      .next (s.after 2 1 (readFrame s.params.aObserveTx [answer 0 s])
        (.ok (.counters (fieldOf (answer 0 s) s.params.plosCnt) (fieldOf (answer 0 s) s.params.arcCnt))))) ∧
  (∀ v : Byte, fieldOf v ⟨7, 4⟩ = v.toNat / 16 ∧ fieldOf v ⟨3, 0⟩ = v.toNat % 16)

/-- R178, R179, by the spec's decision D24: the two feature queries read FEATURE once and answer one bit. -/
def Obligations.FeatureQueriesAnswerOneBit : Prop :=
  ∀ s : State, Ready s → IoOk 2 s →
    exec .dynamicPayloadsEnabled s =
      .next (s.after 2 1 (readFrame 0x1D#5 [answer 0 s])
        (.ok (.boolean ((answer 0 s).getLsbD s.params.bEnDpl.val)))) ∧
    exec .ackPayloadsEnabled s =
      .next (s.after 2 1 (readFrame 0x1D#5 [answer 0 s])
        (.ok (.boolean ((answer 0 s).getLsbD s.params.bEnAckPay.val))))

/-! ## Lifecycle -/

/-- R11, R70, R191, by the spec's decisions D24, D31 and D37: `init` emits its sixteen frames in order, in
whatever lifecycle state, loads the DeviceHandle and ends in STANDBY; a requested size below 1 is refused. The
CONFIG byte has the four bits and no other, and the static size is the requested one, at most 32. -/
def Obligations.InitRunsTheConstructionSequence : Prop :=
  (∀ s : State, Idle s →
    (1 ≤ s.params.staticPayloadSizeReq → IoOk 17 s →
      exec .init s =
        .next { s.after 17 1 (initEvents s.params (answer 0 s)) (.ok .nothing) with
                dh := initHandle s, life := .standby }) ∧
    (s.params.staticPayloadSizeReq < 1 → exec .init s = .refused .staticSizeBelowOne)) ∧
  (∀ (P : Params) (k : BitNo),
    bitOf (configInit P) k =
      decide (k = P.bEnCrc ∨ k = P.bCrco ∨ k = P.bPwrUp ∨ k = P.bPrimRx)) ∧
  (∀ P : Params, clampedSize P = (min P.staticPayloadSizeReq 32).toNat)

/-- R214, R219, by the spec's decisions D7 and D10: an `init` that a failed transaction interrupts keeps
what it has done and ends in the lifecycle state it began in: at the SETUP_AW write the width is not cached
yet, at the channel write it is. -/
def Obligations.InitInterruptedByAFailureKeepsWhatWasDone : Prop :=
  ∀ (s : State) (sent report : Nat), Idle s → 1 ≤ s.params.staticPayloadSizeReq →
    (IoOk 1 s → s.env.io (s.env.ioCount + 1) = .fail sent report →
      exec .init s =
        .next { s.after 2 0
                  (busFrame (0x50#8 :: s.params.activateArg) [] ++
                    brokenFrame [0x20#8 ||| s.params.aSetupAw.setWidth 8, 3#8] sent)
                  (.transportFailure report) with
                dh := { s.dh with
                  staticPayloadSize := clampedSize s.params, pipe0ReadingAddress := none } }) ∧
    (IoOk 2 s → s.env.io (s.env.ioCount + 2) = .fail sent report →
      exec .init s =
        .next { s.after 3 0
                  (busFrame (0x50#8 :: s.params.activateArg) [] ++ writeFrame s.params.aSetupAw [3#8] ++
                    brokenFrame [0x20#8 ||| s.params.aRfCh.setWidth 8, s.params.initialChannel] sent)
                  (.transportFailure report) with
                dh := initHandle s })

/-- R194, R218, by the spec's decisions D10, D24 and D38: `start_listening` sets PRIM_RX, clears the flags,
restores pipe 0 from the cache with the cached length, raises the enable line, reads FEATURE and flushes if
acknowledge payloads are enabled; a failure of that FEATURE read, in either of its calls, or of that flush
leaves the enable line high and `life` as it was. The bytes of a failed `read_bytes`: log entry 14 (V45.11). -/
def Obligations.StartListeningRunsItsSteps : Prop :=
  (∀ s : State, Ready s →
    IoOk (listenCalls s + 2 + (if bitOf (answer 1 s) s.params.bEnAckPay then 1 else 0)) s →
    exec .startListening s =
      .next { s.after (listenCalls s + 2 + (if bitOf (answer 1 s) s.params.bEnAckPay then 1 else 0)) 2
                (listenEvents (answer 0 s) s ++ readFrame 0x1D#5 [answer 1 s] ++
                  (if bitOf (answer 1 s) s.params.bEnAckPay then busFrame [0xE1#8] [] else []))
                (.ok .nothing) with
              ce := .high, life := .listening }) ∧
  (∀ (s : State) (sent report : Nat), Ready s →
    (IoOk (listenCalls s) s → s.env.io (s.env.ioCount + listenCalls s) = .fail sent report →
      exec .startListening s =
        .next { s.after (listenCalls s + 1) 1
                  (listenEvents (answer 0 s) s ++ brokenFrame [0x1D#8] sent)
                  (.transportFailure report) with
                ce := .high }) ∧
    (IoOk (listenCalls s + 1) s → s.env.io (s.env.ioCount + (listenCalls s + 1)) = .fail sent report →
      exec .startListening s =
        .next { s.after (listenCalls s + 2) 1
                  (listenEvents (answer 0 s) s ++ readFrame 0x1D#5 [])
                  (.transportFailure report) with
                ce := .high }) ∧
    (IoOk (listenCalls s + 2) s → bitOf (answer 1 s) s.params.bEnAckPay = true →
      s.env.io (s.env.ioCount + (listenCalls s + 2)) = .fail sent report →
      exec .startListening s =
        .next { s.after (listenCalls s + 3) 2
                  (listenEvents (answer 0 s) s ++ readFrame 0x1D#5 [answer 1 s] ++
                    brokenFrame [0xE1#8] sent)
                  (.transportFailure report) with
                ce := .high }))

/-- R195, R249, by the spec's decisions D24 and D38: `stop_listening` drops the enable line, flushes if
acknowledge payloads are enabled, clears PRIM_RX and enables all six pipes. -/
def Obligations.StopListeningRunsItsSteps : Prop :=
  ∀ s : State, Ready s →
    IoOk (6 + (if bitOf (answer 0 s) s.params.bEnAckPay then 1 else 0)) s →
    exec .stopListening s =
      .next { s.after (6 + (if bitOf (answer 0 s) s.params.bEnAckPay then 1 else 0)) 2
                ([.ceLow] ++ readFrame 0x1D#5 [answer 0 s] ++
                  (if bitOf (answer 0 s) s.params.bEnAckPay then busFrame [0xE1#8] [] else []) ++
                  readFrame 0x00#5 [answer 1 s] ++
                  writeFrame 0x00#5 [answer 1 s &&& ~~~(1#8 <<< s.params.bPrimRx.val)] ++
                  writeFrame s.params.aEnRxaddr [0x3F#8])
                (.ok .nothing) with
              ce := .low, life := .standby }

/-- R196, by the spec's decisions D7 and D39: `teardown` drops the enable line, runs the sequence of `init`,
writes channel 0 and ends in TORN_DOWN, where every host operation but `init` is refused. -/
def Obligations.TeardownRerunsInit : Prop :=
  ∀ s : State, Ready s → 1 ≤ s.params.staticPayloadSizeReq → IoOk 18 s →
    ∃ t : State, exec .teardown s = .next t ∧
      t = { s.after 18 1
              ([.ceLow] ++ initEvents s.params (answer 0 s) ++ writeFrame s.params.aRfCh [0#8])
              (.ok .nothing) with
            dh := initHandle s, ce := .low, life := .tornDown } ∧
      ∀ i : Instr, i.space = .host → i ≠ .init → i.WellFormed → exec i t = .refused .notInitialised

/-! ## The whole machine -/

/-- R214, R218, R219, by the spec's decision D7: whatever is raised out of leaves the block idle in the lifecycle
state it had: an instruction, and a running `write` in a later step (log entry 8), whose response is absent
until it ends, as the invariant says. The enable line keeps the level it had at the raise: LOW in
`stop_listening` and `teardown`, which drop it first; in `start_listening` HIGH after its step 4 and as it was
before it; as it was in everything else. -/
def Obligations.RaisedOperationsLeaveTheBlockIdle : Prop :=
  ∀ (s t : State) (r : Response), t.response = some r → r.isRaised = true →
    ((∃ i, exec i s = .next t) ∨ (∃ w, s.running = some w ∧ s.response = none ∧ step s = .next t) →
      t.life = s.life ∧ t.txFsm = .idle ∧ t.running = none ∧ t.port = s.port ∧
      (s.csn = .released → t.csn = .released)) ∧
    (∀ i, exec i s = .next t →
      (i = .stopListening ∨ i = .teardown → t.ce = .low) ∧
      (i = .startListening → IoOk (listenCalls s) s → t.ce = .high) ∧
      (i = .startListening → ¬ IoOk (listenCalls s) s → t.ce = s.ce) ∧
      (i ≠ .stopListening → i ≠ .teardown → i ≠ .startListening → t.ce = s.ce)) ∧
    (∀ w, s.running = some w → s.response = none → step s = .next t → t.ce = s.ce)

/-- R11, R12, R13, R14: who writes the DeviceHandle; a step of a running `write` does not (log entry 8). -/
def Obligations.DeviceHandleFieldsHaveTheirWriters : Prop :=
  (∀ (i : Instr) (s t : State), exec i s = .next t →
    (t.dh.staticPayloadSize ≠ s.dh.staticPayloadSize → i = .init ∨ i = .teardown) ∧
    (t.dh.addressWidth ≠ s.dh.addressWidth →
      i = .init ∨ i = .teardown ∨ ∃ n, i = .setAddressWidth n) ∧
    (t.dh.pipe0ReadingAddress ≠ s.dh.pipe0ReadingAddress →
      i = .init ∨ i = .teardown ∨ ∃ a, i = .openReadingPipe 0 a) ∧
    t.dh.enablePin = s.dh.enablePin ∧ t.dh.chipSelect = s.dh.chipSelect) ∧
  (∀ (s t : State) (w : PendingWrite), s.running = some w → step s = .next t → t.dh = s.dh)

/-- R17, R19: who moves the enable line and the lifecycle state. -/
def Obligations.EnableLineAndLifeHaveTheirWriters : Prop :=
  ∀ (i : Instr) (s t : State), exec i s = .next t →
    (t.ce ≠ s.ce → i = .startListening ∨ i = .stopListening ∨ i = .teardown ∨
      ∃ p m o, i = .write p m o) ∧
    (t.life ≠ s.life → i = .init ∨ i = .startListening ∨ i = .stopListening ∨ i = .teardown ∨
      ∃ p m o, i = .write p m o)

/-- R6, R46, R47, R226: a step only adds to the events emitted, never takes back a draw, never turns the
clock back, and never writes the parameter record. -/
def Obligations.StepOnlyExtendsTheTrace : Prop :=
  ∀ s t : State, step s = .next t →
    (∃ es, t.trace = s.trace ++ es) ∧ t.params = s.params ∧ s.env.now ≤ t.env.now ∧
    s.env.ioCount ≤ t.env.ioCount ∧ s.env.rxCount ≤ t.env.rxCount ∧
    s.env.tickCount ≤ t.env.tickCount ∧ t.env.ioScript = s.env.ioScript ∧
    t.env.rxScript = s.env.rxScript ∧ t.env.tickScript = s.env.tickScript

/-- R38, R240, by the spec's decision D6: the invariant holds at reset. It says nothing there of the two
handle fields that have no value (log entry 7). -/
def Obligations.InvariantHoldsAtReset : Prop :=
  State.reset.Inv

/-- R15, R17, R18, R19, R92, R244: every step keeps the invariant: chip-select released between steps, the
events whole frames with the enable line moved only between them, `ce` the level last told, `tx_fsm` IDLE
unless a `write` polls, `life` never resting in TRANSMITTING, and the DeviceHandle within its bounds. -/
def Obligations.EveryStepKeepsTheInvariant : Prop :=
  ∀ s t : State, s.Inv → step s = .next t → t.Inv
end

