-- ==== Sys2Proof/Laws/Decode.lean ====
section
/-! SUPPORT. The decoder and the encoder, piece by piece: each operand's decoding gives back what its encoding
wrote, and what each shape of operation accepts. -/

namespace Sys2Proof

/-! ## Sequencing -/

theorem except_bind_ok {ε α β : Type} {x : Except ε α} {f : α → Except ε β} {b : β}
    (h : x.bind f = .ok b) : ∃ a, x = .ok a ∧ f a = .ok b := by
  cases x with
  | error e => cases h
  | ok a => exact ⟨a, rfl, h⟩

theorem except_map_ok {ε α β : Type} {x : Except ε α} {f : α → β} {b : β}
    (h : x.map f = .ok b) : ∃ a, x = .ok a ∧ f a = b := by
  cases x with
  | error e => cases h
  | ok a => exact ⟨a, rfl, by simpa [Except.map] using h⟩

/-! ## Shapes -/

theorem noOperand_ok {i j : Instr} {xs : List Byte} (h : noOperand i xs = .ok j) : xs = [] ∧ i = j := by
  cases xs with
  | nil => exact ⟨rfl, by simpa [noOperand] using h⟩
  | cons _ _ => cases h

theorem oneByte_ok {f : Byte → Except Reject Instr} {j : Instr} {xs : List Byte}
    (h : oneByte f xs = .ok j) : ∃ b, xs = [b] ∧ f b = .ok j := by
  match xs, h with
  | [b], h => exact ⟨b, rfl, h⟩

theorem twoBytes_ok {f : Byte → Byte → Except Reject Instr} {j : Instr} {xs : List Byte}
    (h : twoBytes f xs = .ok j) : ∃ a b, xs = [a, b] ∧ f a b = .ok j := by
  match xs, h with
  | [a, b], h => exact ⟨a, b, rfl, h⟩

theorem byteAndRest_ok {f : Byte → List Byte → Except Reject Instr} {j : Instr} {xs : List Byte}
    (h : byteAndRest f xs = .ok j) : ∃ b rest, xs = b :: rest ∧ f b rest = .ok j := by
  match xs, h with
  | b :: rest, h => exact ⟨b, rest, rfl, h⟩

theorem checkWellFormed_ok {i j : Instr} (h : checkWellFormed i = .ok j) : i = j ∧ i.WellFormed := by
  unfold checkWellFormed at h
  split at h
  · cases h
  · exact ⟨by simpa using h, by assumption⟩

theorem checkWellFormed_wellFormed {i : Instr} (h : i.WellFormed) : checkWellFormed i = .ok i := by
  simp [checkWellFormed, h]

/-! ## Operands -/

@[simp] theorem decThreeBit_encThreeBit (d n : BitVec 3) : decThreeBit d (encThreeBit n) = .ok n := by
  revert d n; decide

@[simp] theorem decPipe_encPipe (p : Pipe) : decPipe (encPipe p) = .ok p := by
  revert p; decide

@[simp] theorem decNibble_setWidth (n : BitVec 4) : decNibble (n.setWidth 8) = .ok n := by
  revert n; decide

@[simp] theorem decRegister_encRegister (r : RegOperand) : decRegister (encRegister r) = .ok r := by
  cases r with
  | address a => revert a; decide
  | named id => cases id <;> first | decide | (rename_i p; revert p; decide)

/-- A command operand's two bytes are read back. -/
theorem decCommand_encCommand (c : CmdOperand) :
    ∃ tag b, encCommand c = [tag, b] ∧ decCommand tag b = .ok c := by
  cases c with
  | opcode b => exact ⟨0#8, b, rfl, rfl⟩
  | named c => exact ⟨1#8, _, rfl, by cases c <;> decide⟩

@[simp] theorem decDatarate_encDatarate (d : DatarateArg) : decDatarate (encDatarate d) = d := by
  cases d with
  | known d => cases d <;> rfl
  | other => rfl

@[simp] theorem decAckMode_encAckMode (m : AckMode) : decAckMode (encAckMode m) = .ok m := by
  cases m <;> rfl

/-- A number's bytes are read back, and what follows them is left. -/
theorem decNat_encNatFuel (fuel n : Nat) (hf : n ≤ fuel) (rest : List Byte) :
    decNat (encNatFuel fuel n ++ rest) = .ok (n, rest) := by
  induction fuel generalizing n with
  | zero =>
    obtain rfl : n = 0 := by omega
    simp [encNatFuel, decNat]
  | succ fuel ih =>
    unfold encNatFuel
    split
    · rename_i h
      have e : n % 256 = n := by omega
      simp [decNat, e, h]
    · rename_i h
      have e : (BitVec.ofNat 8 (n % 128 + 128)).toNat = n % 128 + 128 := by simp; omega
      simp only [List.cons_append, decNat, e, ih (n / 128) (by omega)]
      simp
      omega

@[simp] theorem decNat_encNat (n : Nat) (rest : List Byte) : decNat (encNat n ++ rest) = .ok (n, rest) :=
  decNat_encNatFuel n n le_rfl rest

@[simp] theorem decInt_encInt (z : Int) : decInt (encInt z) = .ok z := by
  have h := decNat_encNat z.natAbs []
  simp only [List.append_nil] at h
  simp only [encInt, decInt, h]
  by_cases hz : z < 0
  · simp [hz]
    rw [abs_of_neg hz]
    omega
  · simp [hz]
    omega

@[simp] theorem decPower_encPower (p : PowerArg) : decPower (encPower p) = .ok p := by
  cases p with
  | level l => cases l <;> rfl
  | number z => simp [decPower, encPower, Except.map]
  | other => rfl

@[simp] theorem decCrc_encCrc (l : CrcArg) : decCrc (encCrc l) = .ok l := by
  cases l with
  | number z => simp [decCrc, encCrc, Except.map]
  | crc16 => rfl
  | crc8 => rfl
  | other => rfl

/-- A counted sequence of at most 254 bytes is read back. -/
theorem decCounted_tagCount {bs : List Byte} (h : bs.length ≤ 254) (dflt : Nat) :
    decCounted (tagCount dflt (BitVec.ofNat 8 (bs.length + 1))) bs = .ok bs := by
  have e : (bs.length + 1) % 256 = bs.length + 1 := by omega
  simp [decCounted, tagCount, e]

end Sys2Proof
end

