-- ==== Sys2Proof/Laws/State.lean ====
section
/-! SUPPORT. One lemma for each field after each update of the state and of the environment, true by
unfolding, so that no later proof unfolds a record update. -/

namespace Sys2Proof.Machine

/-! ## The environment -/

@[simp] theorem Env.took_ioScript (m n : Nat) (e : Env) : (e.took m n).ioScript = e.ioScript := rfl
@[simp] theorem Env.took_rxScript (m n : Nat) (e : Env) : (e.took m n).rxScript = e.rxScript := rfl
@[simp] theorem Env.took_tickScript (m n : Nat) (e : Env) : (e.took m n).tickScript = e.tickScript := rfl
@[simp] theorem Env.took_ioCount (m n : Nat) (e : Env) : (e.took m n).ioCount = e.ioCount + m := rfl
@[simp] theorem Env.took_rxCount (m n : Nat) (e : Env) : (e.took m n).rxCount = e.rxCount + n := rfl
@[simp] theorem Env.took_tickCount (m n : Nat) (e : Env) : (e.took m n).tickCount = e.tickCount := rfl
@[simp] theorem Env.took_now (m n : Nat) (e : Env) : (e.took m n).now = e.now := rfl
@[simp] theorem Env.took_io (m n : Nat) (e : Env) : (e.took m n).io = e.io := rfl
@[simp] theorem Env.took_rx (m n : Nat) (e : Env) : (e.took m n).rx = e.rx := rfl
@[simp] theorem Env.took_tick (m n : Nat) (e : Env) : (e.took m n).tick = e.tick := rfl
@[simp] theorem Env.ticked_ioScript (e : Env) : (e.ticked).ioScript = e.ioScript := rfl
@[simp] theorem Env.ticked_rxScript (e : Env) : (e.ticked).rxScript = e.rxScript := rfl
@[simp] theorem Env.ticked_tickScript (e : Env) : (e.ticked).tickScript = e.tickScript := rfl
@[simp] theorem Env.ticked_ioCount (e : Env) : (e.ticked).ioCount = e.ioCount := rfl
@[simp] theorem Env.ticked_rxCount (e : Env) : (e.ticked).rxCount = e.rxCount := rfl
@[simp] theorem Env.ticked_tickCount (e : Env) : (e.ticked).tickCount = e.tickCount + 1 := rfl
@[simp] theorem Env.ticked_now (e : Env) : (e.ticked).now = e.now + e.tick e.tickCount := rfl
@[simp] theorem Env.ticked_io (e : Env) : (e.ticked).io = e.io := rfl
@[simp] theorem Env.ticked_rx (e : Env) : (e.ticked).rx = e.rx := rfl
@[simp] theorem Env.ticked_tick (e : Env) : (e.ticked).tick = e.tick := rfl

@[simp] theorem Env.took_took (m n m' n' : Nat) (e : Env) :
    (e.took m n).took m' n' = e.took (m + m') (n + n') := by
  simp [Env.took, Nat.add_assoc]

@[simp] theorem Env.took_zero (e : Env) : e.took 0 0 = e := rfl

@[simp] theorem Env.took_rxBytes (m n k : Nat) (e : Env) :
    (e.took m n).rxBytes k = (List.range k).map fun i => e.rx (e.rxCount + n + i) := rfl

/-! ## The state -/

@[simp] theorem State.emit_dh (es : List Event) (s : State) : (s.emit es).dh = s.dh := rfl
@[simp] theorem State.emit_life (es : List Event) (s : State) : (s.emit es).life = s.life := rfl
@[simp] theorem State.emit_txFsm (es : List Event) (s : State) : (s.emit es).txFsm = s.txFsm := rfl
@[simp] theorem State.emit_csn (es : List Event) (s : State) : (s.emit es).csn = s.csn := rfl
@[simp] theorem State.emit_ce (es : List Event) (s : State) : (s.emit es).ce = s.ce := rfl
@[simp] theorem State.emit_running (es : List Event) (s : State) : (s.emit es).running = s.running := rfl
@[simp] theorem State.emit_params (es : List Event) (s : State) : (s.emit es).params = s.params := rfl
@[simp] theorem State.emit_port (es : List Event) (s : State) : (s.emit es).port = s.port := rfl
@[simp] theorem State.emit_response (es : List Event) (s : State) : (s.emit es).response = s.response := rfl
@[simp] theorem State.emit_trace (es : List Event) (s : State) : (s.emit es).trace = s.trace ++ es := rfl
@[simp] theorem State.emit_env (es : List Event) (s : State) : (s.emit es).env = s.env := rfl

@[simp] theorem State.assertCs_dh (s : State) : (s.assertCs).dh = s.dh := rfl
@[simp] theorem State.assertCs_life (s : State) : (s.assertCs).life = s.life := rfl
@[simp] theorem State.assertCs_txFsm (s : State) : (s.assertCs).txFsm = s.txFsm := rfl
@[simp] theorem State.assertCs_csn (s : State) : (s.assertCs).csn = .asserted := rfl
@[simp] theorem State.assertCs_ce (s : State) : (s.assertCs).ce = s.ce := rfl
@[simp] theorem State.assertCs_running (s : State) : (s.assertCs).running = s.running := rfl
@[simp] theorem State.assertCs_params (s : State) : (s.assertCs).params = s.params := rfl
@[simp] theorem State.assertCs_port (s : State) : (s.assertCs).port = s.port := rfl
@[simp] theorem State.assertCs_response (s : State) : (s.assertCs).response = s.response := rfl
@[simp] theorem State.assertCs_trace (s : State) : (s.assertCs).trace = s.trace ++ [.csAssert] := rfl
@[simp] theorem State.assertCs_env (s : State) : (s.assertCs).env = s.env := rfl

@[simp] theorem State.releaseCs_dh (s : State) : (s.releaseCs).dh = s.dh := rfl
@[simp] theorem State.releaseCs_life (s : State) : (s.releaseCs).life = s.life := rfl
@[simp] theorem State.releaseCs_txFsm (s : State) : (s.releaseCs).txFsm = s.txFsm := rfl
@[simp] theorem State.releaseCs_csn (s : State) : (s.releaseCs).csn = .released := rfl
@[simp] theorem State.releaseCs_ce (s : State) : (s.releaseCs).ce = s.ce := rfl
@[simp] theorem State.releaseCs_running (s : State) : (s.releaseCs).running = s.running := rfl
@[simp] theorem State.releaseCs_params (s : State) : (s.releaseCs).params = s.params := rfl
@[simp] theorem State.releaseCs_port (s : State) : (s.releaseCs).port = s.port := rfl
@[simp] theorem State.releaseCs_response (s : State) : (s.releaseCs).response = s.response := rfl
@[simp] theorem State.releaseCs_trace (s : State) : (s.releaseCs).trace = s.trace ++ [.csRelease] := rfl
@[simp] theorem State.releaseCs_env (s : State) : (s.releaseCs).env = s.env := rfl

@[simp] theorem State.raiseEnable_dh (s : State) : (s.raiseEnable).dh = s.dh := rfl
@[simp] theorem State.raiseEnable_life (s : State) : (s.raiseEnable).life = s.life := rfl
@[simp] theorem State.raiseEnable_txFsm (s : State) : (s.raiseEnable).txFsm = s.txFsm := rfl
@[simp] theorem State.raiseEnable_csn (s : State) : (s.raiseEnable).csn = s.csn := rfl
@[simp] theorem State.raiseEnable_ce (s : State) : (s.raiseEnable).ce = .high := rfl
@[simp] theorem State.raiseEnable_running (s : State) : (s.raiseEnable).running = s.running := rfl
@[simp] theorem State.raiseEnable_params (s : State) : (s.raiseEnable).params = s.params := rfl
@[simp] theorem State.raiseEnable_port (s : State) : (s.raiseEnable).port = s.port := rfl
@[simp] theorem State.raiseEnable_response (s : State) : (s.raiseEnable).response = s.response := rfl
@[simp] theorem State.raiseEnable_trace (s : State) : (s.raiseEnable).trace = s.trace ++ [.ceHigh] := rfl
@[simp] theorem State.raiseEnable_env (s : State) : (s.raiseEnable).env = s.env := rfl

@[simp] theorem State.dropEnable_dh (s : State) : (s.dropEnable).dh = s.dh := rfl
@[simp] theorem State.dropEnable_life (s : State) : (s.dropEnable).life = s.life := rfl
@[simp] theorem State.dropEnable_txFsm (s : State) : (s.dropEnable).txFsm = s.txFsm := rfl
@[simp] theorem State.dropEnable_csn (s : State) : (s.dropEnable).csn = s.csn := rfl
@[simp] theorem State.dropEnable_ce (s : State) : (s.dropEnable).ce = .low := rfl
@[simp] theorem State.dropEnable_running (s : State) : (s.dropEnable).running = s.running := rfl
@[simp] theorem State.dropEnable_params (s : State) : (s.dropEnable).params = s.params := rfl
@[simp] theorem State.dropEnable_port (s : State) : (s.dropEnable).port = s.port := rfl
@[simp] theorem State.dropEnable_response (s : State) : (s.dropEnable).response = s.response := rfl
@[simp] theorem State.dropEnable_trace (s : State) : (s.dropEnable).trace = s.trace ++ [.ceLow] := rfl
@[simp] theorem State.dropEnable_env (s : State) : (s.dropEnable).env = s.env := rfl

@[simp] theorem State.setLife_dh (l : Life) (s : State) : (s.setLife l).dh = s.dh := rfl
@[simp] theorem State.setLife_life (l : Life) (s : State) : (s.setLife l).life = l := rfl
@[simp] theorem State.setLife_txFsm (l : Life) (s : State) : (s.setLife l).txFsm = s.txFsm := rfl
@[simp] theorem State.setLife_csn (l : Life) (s : State) : (s.setLife l).csn = s.csn := rfl
@[simp] theorem State.setLife_ce (l : Life) (s : State) : (s.setLife l).ce = s.ce := rfl
@[simp] theorem State.setLife_running (l : Life) (s : State) : (s.setLife l).running = s.running := rfl
@[simp] theorem State.setLife_params (l : Life) (s : State) : (s.setLife l).params = s.params := rfl
@[simp] theorem State.setLife_port (l : Life) (s : State) : (s.setLife l).port = s.port := rfl
@[simp] theorem State.setLife_response (l : Life) (s : State) : (s.setLife l).response = s.response := rfl
@[simp] theorem State.setLife_trace (l : Life) (s : State) : (s.setLife l).trace = s.trace := rfl
@[simp] theorem State.setLife_env (l : Life) (s : State) : (s.setLife l).env = s.env := rfl

@[simp] theorem State.setTxFsm_dh (f : TxFsm) (s : State) : (s.setTxFsm f).dh = s.dh := rfl
@[simp] theorem State.setTxFsm_life (f : TxFsm) (s : State) : (s.setTxFsm f).life = s.life := rfl
@[simp] theorem State.setTxFsm_txFsm (f : TxFsm) (s : State) : (s.setTxFsm f).txFsm = f := rfl
@[simp] theorem State.setTxFsm_csn (f : TxFsm) (s : State) : (s.setTxFsm f).csn = s.csn := rfl
@[simp] theorem State.setTxFsm_ce (f : TxFsm) (s : State) : (s.setTxFsm f).ce = s.ce := rfl
@[simp] theorem State.setTxFsm_running (f : TxFsm) (s : State) : (s.setTxFsm f).running = s.running := rfl
@[simp] theorem State.setTxFsm_params (f : TxFsm) (s : State) : (s.setTxFsm f).params = s.params := rfl
@[simp] theorem State.setTxFsm_port (f : TxFsm) (s : State) : (s.setTxFsm f).port = s.port := rfl
@[simp] theorem State.setTxFsm_response (f : TxFsm) (s : State) : (s.setTxFsm f).response = s.response := rfl
@[simp] theorem State.setTxFsm_trace (f : TxFsm) (s : State) : (s.setTxFsm f).trace = s.trace := rfl
@[simp] theorem State.setTxFsm_env (f : TxFsm) (s : State) : (s.setTxFsm f).env = s.env := rfl

@[simp] theorem State.setRunning_dh (w : Option PendingWrite) (s : State) : (s.setRunning w).dh = s.dh := rfl
@[simp] theorem State.setRunning_life (w : Option PendingWrite) (s : State) : (s.setRunning w).life = s.life := rfl
@[simp] theorem State.setRunning_txFsm (w : Option PendingWrite) (s : State) : (s.setRunning w).txFsm = s.txFsm := rfl
@[simp] theorem State.setRunning_csn (w : Option PendingWrite) (s : State) : (s.setRunning w).csn = s.csn := rfl
@[simp] theorem State.setRunning_ce (w : Option PendingWrite) (s : State) : (s.setRunning w).ce = s.ce := rfl
@[simp] theorem State.setRunning_running (w : Option PendingWrite) (s : State) : (s.setRunning w).running = w := rfl
@[simp] theorem State.setRunning_params (w : Option PendingWrite) (s : State) : (s.setRunning w).params = s.params := rfl
@[simp] theorem State.setRunning_port (w : Option PendingWrite) (s : State) : (s.setRunning w).port = s.port := rfl
@[simp] theorem State.setRunning_response (w : Option PendingWrite) (s : State) : (s.setRunning w).response = s.response := rfl
@[simp] theorem State.setRunning_trace (w : Option PendingWrite) (s : State) : (s.setRunning w).trace = s.trace := rfl
@[simp] theorem State.setRunning_env (w : Option PendingWrite) (s : State) : (s.setRunning w).env = s.env := rfl

@[simp] theorem State.setStaticPayloadSize_dh (n : Nat) (s : State) : (s.setStaticPayloadSize n).dh = { s.dh with staticPayloadSize := n } := rfl
@[simp] theorem State.setStaticPayloadSize_life (n : Nat) (s : State) : (s.setStaticPayloadSize n).life = s.life := rfl
@[simp] theorem State.setStaticPayloadSize_txFsm (n : Nat) (s : State) : (s.setStaticPayloadSize n).txFsm = s.txFsm := rfl
@[simp] theorem State.setStaticPayloadSize_csn (n : Nat) (s : State) : (s.setStaticPayloadSize n).csn = s.csn := rfl
@[simp] theorem State.setStaticPayloadSize_ce (n : Nat) (s : State) : (s.setStaticPayloadSize n).ce = s.ce := rfl
@[simp] theorem State.setStaticPayloadSize_running (n : Nat) (s : State) : (s.setStaticPayloadSize n).running = s.running := rfl
@[simp] theorem State.setStaticPayloadSize_params (n : Nat) (s : State) : (s.setStaticPayloadSize n).params = s.params := rfl
@[simp] theorem State.setStaticPayloadSize_port (n : Nat) (s : State) : (s.setStaticPayloadSize n).port = s.port := rfl
@[simp] theorem State.setStaticPayloadSize_response (n : Nat) (s : State) : (s.setStaticPayloadSize n).response = s.response := rfl
@[simp] theorem State.setStaticPayloadSize_trace (n : Nat) (s : State) : (s.setStaticPayloadSize n).trace = s.trace := rfl
@[simp] theorem State.setStaticPayloadSize_env (n : Nat) (s : State) : (s.setStaticPayloadSize n).env = s.env := rfl

@[simp] theorem State.setAddressWidth_dh (n : Nat) (s : State) : (s.setAddressWidth n).dh = { s.dh with addressWidth := n } := rfl
@[simp] theorem State.setAddressWidth_life (n : Nat) (s : State) : (s.setAddressWidth n).life = s.life := rfl
@[simp] theorem State.setAddressWidth_txFsm (n : Nat) (s : State) : (s.setAddressWidth n).txFsm = s.txFsm := rfl
@[simp] theorem State.setAddressWidth_csn (n : Nat) (s : State) : (s.setAddressWidth n).csn = s.csn := rfl
@[simp] theorem State.setAddressWidth_ce (n : Nat) (s : State) : (s.setAddressWidth n).ce = s.ce := rfl
@[simp] theorem State.setAddressWidth_running (n : Nat) (s : State) : (s.setAddressWidth n).running = s.running := rfl
@[simp] theorem State.setAddressWidth_params (n : Nat) (s : State) : (s.setAddressWidth n).params = s.params := rfl
@[simp] theorem State.setAddressWidth_port (n : Nat) (s : State) : (s.setAddressWidth n).port = s.port := rfl
@[simp] theorem State.setAddressWidth_response (n : Nat) (s : State) : (s.setAddressWidth n).response = s.response := rfl
@[simp] theorem State.setAddressWidth_trace (n : Nat) (s : State) : (s.setAddressWidth n).trace = s.trace := rfl
@[simp] theorem State.setAddressWidth_env (n : Nat) (s : State) : (s.setAddressWidth n).env = s.env := rfl

@[simp] theorem State.setPipe0Address_dh (a : Option (List Byte)) (s : State) : (s.setPipe0Address a).dh = { s.dh with pipe0ReadingAddress := a } := rfl
@[simp] theorem State.setPipe0Address_life (a : Option (List Byte)) (s : State) : (s.setPipe0Address a).life = s.life := rfl
@[simp] theorem State.setPipe0Address_txFsm (a : Option (List Byte)) (s : State) : (s.setPipe0Address a).txFsm = s.txFsm := rfl
@[simp] theorem State.setPipe0Address_csn (a : Option (List Byte)) (s : State) : (s.setPipe0Address a).csn = s.csn := rfl
@[simp] theorem State.setPipe0Address_ce (a : Option (List Byte)) (s : State) : (s.setPipe0Address a).ce = s.ce := rfl
@[simp] theorem State.setPipe0Address_running (a : Option (List Byte)) (s : State) : (s.setPipe0Address a).running = s.running := rfl
@[simp] theorem State.setPipe0Address_params (a : Option (List Byte)) (s : State) : (s.setPipe0Address a).params = s.params := rfl
@[simp] theorem State.setPipe0Address_port (a : Option (List Byte)) (s : State) : (s.setPipe0Address a).port = s.port := rfl
@[simp] theorem State.setPipe0Address_response (a : Option (List Byte)) (s : State) : (s.setPipe0Address a).response = s.response := rfl
@[simp] theorem State.setPipe0Address_trace (a : Option (List Byte)) (s : State) : (s.setPipe0Address a).trace = s.trace := rfl
@[simp] theorem State.setPipe0Address_env (a : Option (List Byte)) (s : State) : (s.setPipe0Address a).env = s.env := rfl

@[simp] theorem State.took_dh (m n : Nat) (s : State) : (s.took m n).dh = s.dh := rfl
@[simp] theorem State.took_life (m n : Nat) (s : State) : (s.took m n).life = s.life := rfl
@[simp] theorem State.took_txFsm (m n : Nat) (s : State) : (s.took m n).txFsm = s.txFsm := rfl
@[simp] theorem State.took_csn (m n : Nat) (s : State) : (s.took m n).csn = s.csn := rfl
@[simp] theorem State.took_ce (m n : Nat) (s : State) : (s.took m n).ce = s.ce := rfl
@[simp] theorem State.took_running (m n : Nat) (s : State) : (s.took m n).running = s.running := rfl
@[simp] theorem State.took_params (m n : Nat) (s : State) : (s.took m n).params = s.params := rfl
@[simp] theorem State.took_port (m n : Nat) (s : State) : (s.took m n).port = s.port := rfl
@[simp] theorem State.took_response (m n : Nat) (s : State) : (s.took m n).response = s.response := rfl
@[simp] theorem State.took_trace (m n : Nat) (s : State) : (s.took m n).trace = s.trace := rfl
@[simp] theorem State.took_env (m n : Nat) (s : State) : (s.took m n).env = s.env.took m n := rfl

@[simp] theorem State.readClock_dh (s : State) : (s.readClock).dh = s.dh := rfl
@[simp] theorem State.readClock_life (s : State) : (s.readClock).life = s.life := rfl
@[simp] theorem State.readClock_txFsm (s : State) : (s.readClock).txFsm = s.txFsm := rfl
@[simp] theorem State.readClock_csn (s : State) : (s.readClock).csn = s.csn := rfl
@[simp] theorem State.readClock_ce (s : State) : (s.readClock).ce = s.ce := rfl
@[simp] theorem State.readClock_running (s : State) : (s.readClock).running = s.running := rfl
@[simp] theorem State.readClock_params (s : State) : (s.readClock).params = s.params := rfl
@[simp] theorem State.readClock_port (s : State) : (s.readClock).port = s.port := rfl
@[simp] theorem State.readClock_response (s : State) : (s.readClock).response = s.response := rfl
@[simp] theorem State.readClock_trace (s : State) : (s.readClock).trace = s.trace := rfl
@[simp] theorem State.readClock_env (s : State) : (s.readClock).env = s.env.ticked := rfl

@[simp] theorem State.respond_dh (r : Response) (s : State) : (s.respond r).dh = s.dh := rfl
@[simp] theorem State.respond_life (r : Response) (s : State) : (s.respond r).life = s.life := rfl
@[simp] theorem State.respond_txFsm (r : Response) (s : State) : (s.respond r).txFsm = .idle := rfl
@[simp] theorem State.respond_csn (r : Response) (s : State) : (s.respond r).csn = s.csn := rfl
@[simp] theorem State.respond_ce (r : Response) (s : State) : (s.respond r).ce = s.ce := rfl
@[simp] theorem State.respond_running (r : Response) (s : State) : (s.respond r).running = none := rfl
@[simp] theorem State.respond_params (r : Response) (s : State) : (s.respond r).params = s.params := rfl
@[simp] theorem State.respond_port (r : Response) (s : State) : (s.respond r).port = s.port := rfl
@[simp] theorem State.respond_response (r : Response) (s : State) : (s.respond r).response = some r := rfl
@[simp] theorem State.respond_trace (r : Response) (s : State) : (s.respond r).trace = s.trace := rfl
@[simp] theorem State.respond_env (r : Response) (s : State) : (s.respond r).env = s.env := rfl

@[simp] theorem State.raise_dh (e : Error) (s : State) : (s.raise e).dh = s.dh := rfl
@[simp] theorem State.raise_life (e : Error) (s : State) : (s.raise e).life = s.life := rfl
@[simp] theorem State.raise_txFsm (e : Error) (s : State) : (s.raise e).txFsm = .idle := rfl
@[simp] theorem State.raise_csn (e : Error) (s : State) : (s.raise e).csn = s.csn := rfl
@[simp] theorem State.raise_ce (e : Error) (s : State) : (s.raise e).ce = s.ce := rfl
@[simp] theorem State.raise_running (e : Error) (s : State) : (s.raise e).running = none := rfl
@[simp] theorem State.raise_params (e : Error) (s : State) : (s.raise e).params = s.params := rfl
@[simp] theorem State.raise_port (e : Error) (s : State) : (s.raise e).port = s.port := rfl
@[simp] theorem State.raise_response (e : Error) (s : State) : (s.raise e).response = some e.response := rfl
@[simp] theorem State.raise_trace (e : Error) (s : State) : (s.raise e).trace = s.trace := rfl
@[simp] theorem State.raise_env (e : Error) (s : State) : (s.raise e).env = s.env := rfl

@[simp] theorem State.begin_dh (s : State) : (s.begin).dh = s.dh := rfl
@[simp] theorem State.begin_life (s : State) : (s.begin).life = s.life := rfl
@[simp] theorem State.begin_txFsm (s : State) : (s.begin).txFsm = s.txFsm := rfl
@[simp] theorem State.begin_csn (s : State) : (s.begin).csn = s.csn := rfl
@[simp] theorem State.begin_ce (s : State) : (s.begin).ce = s.ce := rfl
@[simp] theorem State.begin_running (s : State) : (s.begin).running = s.running := rfl
@[simp] theorem State.begin_params (s : State) : (s.begin).params = s.params := rfl
@[simp] theorem State.begin_port (s : State) : (s.begin).port = s.port := rfl
@[simp] theorem State.begin_response (s : State) : (s.begin).response = none := rfl
@[simp] theorem State.begin_trace (s : State) : (s.begin).trace = s.trace := rfl
@[simp] theorem State.begin_env (s : State) : (s.begin).env = s.env := rfl

@[simp] theorem State.after_dh (m n : Nat) (es : List Event) (r : Response) (s : State) : (s.after m n es r).dh = s.dh := rfl
@[simp] theorem State.after_life (m n : Nat) (es : List Event) (r : Response) (s : State) : (s.after m n es r).life = s.life := rfl
@[simp] theorem State.after_txFsm (m n : Nat) (es : List Event) (r : Response) (s : State) : (s.after m n es r).txFsm = s.txFsm := rfl
@[simp] theorem State.after_csn (m n : Nat) (es : List Event) (r : Response) (s : State) : (s.after m n es r).csn = s.csn := rfl
@[simp] theorem State.after_ce (m n : Nat) (es : List Event) (r : Response) (s : State) : (s.after m n es r).ce = s.ce := rfl
@[simp] theorem State.after_running (m n : Nat) (es : List Event) (r : Response) (s : State) : (s.after m n es r).running = s.running := rfl
@[simp] theorem State.after_params (m n : Nat) (es : List Event) (r : Response) (s : State) : (s.after m n es r).params = s.params := rfl
@[simp] theorem State.after_port (m n : Nat) (es : List Event) (r : Response) (s : State) : (s.after m n es r).port = s.port := rfl
@[simp] theorem State.after_response (m n : Nat) (es : List Event) (r : Response) (s : State) : (s.after m n es r).response = some r := rfl
@[simp] theorem State.after_trace (m n : Nat) (es : List Event) (r : Response) (s : State) : (s.after m n es r).trace = s.trace ++ es := rfl
@[simp] theorem State.after_env (m n : Nat) (es : List Event) (r : Response) (s : State) : (s.after m n es r).env = s.env.took m n := rfl

section Ended
variable (m n : Nat) (es : List Event) (r : Response) (s : State)
@[simp] theorem State.ended_dh : (s.ended m n es r).dh = s.dh := rfl
@[simp] theorem State.ended_life : (s.ended m n es r).life = s.life := rfl
@[simp] theorem State.ended_txFsm : (s.ended m n es r).txFsm = .idle := rfl
@[simp] theorem State.ended_csn : (s.ended m n es r).csn = s.csn := rfl
@[simp] theorem State.ended_ce : (s.ended m n es r).ce = s.ce := rfl
@[simp] theorem State.ended_running : (s.ended m n es r).running = none := rfl
@[simp] theorem State.ended_params : (s.ended m n es r).params = s.params := rfl
@[simp] theorem State.ended_port : (s.ended m n es r).port = s.port := rfl
@[simp] theorem State.ended_response : (s.ended m n es r).response = some r := rfl
@[simp] theorem State.ended_trace : (s.ended m n es r).trace = s.trace ++ es := rfl
@[simp] theorem State.ended_env : (s.ended m n es r).env = s.env.took m n := rfl
end Ended

end Sys2Proof.Machine
end

