-- ==== Sys2Proof/Laws/Ops.lean ====
section
/-! SUPPORT. One law for each shared operation: what a transaction answers when the transport succeeds,
what it leaves when it fails, and everything a transaction can do. -/

namespace Sys2Proof.Machine

/-! ## Sequencing -/

@[simp] theorem Ended.andThen_done {α β : Type} (a : α) (s : State) (f : α → State → Ended β) :
    (Ended.done a s).andThen f = f a s := rfl

@[simp] theorem Ended.andThen_raised {α β : Type} (e : Error) (s : State) (f : α → State → Ended β) :
    (Ended.raised e s : Ended α).andThen f = .raised e s := rfl

@[simp] theorem Ended.map_done {α β : Type} (g : α → β) (a : α) (s : State) :
    (Ended.done a s).map g = .done (g a) s := rfl

@[simp] theorem Ended.map_raised {α β : Type} (g : α → β) (e : Error) (s : State) :
    (Ended.raised e s : Ended α).map g = .raised e s := rfl

@[simp] theorem Ended.state_done {α : Type} (a : α) (s : State) : (Ended.done a s).state = s := rfl

@[simp] theorem Ended.state_raised {α : Type} (e : Error) (s : State) :
    (Ended.raised e s : Ended α).state = s := rfl

@[simp] theorem finish_done (r : Response) (s : State) : finish (.done r s) = s.respond r := rfl

@[simp] theorem finish_raised (e : Error) (s : State) : finish (.raised e s) = s.raise e := rfl

theorem Ended.map_eq_andThen {α β : Type} (g : α → β) (r : Ended α) :
    r.map g = r.andThen fun a s => .done (g a) s := by
  cases r <;> rfl

/-! ## Transactions -/

/-- `s` after a frame: `m` transport calls and `n` bytes read, with the frame's events. -/
def State.framed (m n : Nat) (es : List Event) (s : State) : State :=
  { s with csn := .released, trace := s.trace ++ es, env := s.env.took m n }

section Framed
variable (m n : Nat) (es : List Event) (s : State)
@[simp] theorem State.framed_dh : (s.framed m n es).dh = s.dh := rfl
@[simp] theorem State.framed_life : (s.framed m n es).life = s.life := rfl
@[simp] theorem State.framed_txFsm : (s.framed m n es).txFsm = s.txFsm := rfl
@[simp] theorem State.framed_csn : (s.framed m n es).csn = .released := rfl
@[simp] theorem State.framed_ce : (s.framed m n es).ce = s.ce := rfl
@[simp] theorem State.framed_running : (s.framed m n es).running = s.running := rfl
@[simp] theorem State.framed_params : (s.framed m n es).params = s.params := rfl
@[simp] theorem State.framed_port : (s.framed m n es).port = s.port := rfl
@[simp] theorem State.framed_response : (s.framed m n es).response = s.response := rfl
@[simp] theorem State.framed_trace : (s.framed m n es).trace = s.trace ++ es := rfl
@[simp] theorem State.framed_env : (s.framed m n es).env = s.env.took m n := rfl
end Framed

@[simp] theorem State.framed_framed (m n m' n' : Nat) (es es' : List Event) (s : State) :
    (s.framed m n es).framed m' n' es' = s.framed (m + m') (n + n') (es ++ es') := by
  simp [State.framed]

/-- A frame that writes only, when the transport succeeds. -/
theorem transact_write_ok {s : State} (tx : List Byte) (h : s.env.io s.env.ioCount = .ok) :
    transact tx 0 s = .done [] (s.framed 1 0 (busFrame tx [])) := by
  simp [transact, inScope, writeBytes, h, State.framed, State.assertCs, State.releaseCs, State.emit,
    State.took, busFrame]

/-- A frame that reads, when the transport succeeds. -/
theorem transact_read_ok {s : State} (tx : List Byte) {n : Nat} (hn : n ≠ 0)
    (h0 : s.env.io s.env.ioCount = .ok) (h1 : s.env.io (s.env.ioCount + 1) = .ok) :
    transact tx n s = .done (s.env.rxBytes n) (s.framed 2 n (busFrame tx (s.env.rxBytes n))) := by
  simp [transact, inScope, writeBytes, readBytes, h0, h1, hn, State.framed, State.assertCs,
    State.releaseCs, State.emit, State.took, busFrame, Env.rxBytes]

/-- A frame whose `write_bytes` fails: any prefix, and chip-select released (R92, R214). -/
theorem transact_write_fails {s : State} (tx : List Byte) (n : Nat) {sent report : Nat}
    (h : s.env.io s.env.ioCount = .fail sent report) :
    transact tx n s = .raised (.transportFailure report) (s.framed 1 0 (brokenFrame tx sent)) := by
  simp [transact, inScope, writeBytes, h, State.framed, State.assertCs, State.releaseCs, State.emit,
    State.took, brokenFrame, busFrame]

/-- A frame whose `read_bytes` fails: nothing is delivered, and chip-select released (R92, R214). -/
theorem transact_read_fails {s : State} (tx : List Byte) {n : Nat} (hn : n ≠ 0) {sent report : Nat}
    (h0 : s.env.io s.env.ioCount = .ok) (h1 : s.env.io (s.env.ioCount + 1) = .fail sent report) :
    transact tx n s = .raised (.transportFailure report) (s.framed 2 0 (busFrame tx [])) := by
  simp [transact, inScope, writeBytes, readBytes, h0, h1, hn, State.framed, State.assertCs,
    State.releaseCs, State.emit, State.took, busFrame]

/-- Everything a transaction can do (R92). -/
theorem transact_cases (tx : List Byte) (n : Nat) (s : State) :
    (n = 0 ∧ transact tx n s = .done [] (s.framed 1 0 (busFrame tx []))) ∨
    (n ≠ 0 ∧ transact tx n s =
      .done (s.env.rxBytes n) (s.framed 2 n (busFrame tx (s.env.rxBytes n)))) ∨
    (∃ sent report, transact tx n s =
      .raised (.transportFailure report) (s.framed 1 0 (brokenFrame tx sent))) ∨
    (n ≠ 0 ∧ ∃ report, transact tx n s =
      .raised (.transportFailure report) (s.framed 2 0 (busFrame tx []))) := by
  cases h0 : s.env.io s.env.ioCount with
  | fail sent report => exact .inr (.inr (.inl ⟨sent, report, transact_write_fails tx n h0⟩))
  | ok =>
    by_cases hn : n = 0
    · subst hn; exact .inl ⟨rfl, transact_write_ok tx h0⟩
    · cases h1 : s.env.io (s.env.ioCount + 1) with
      | ok => exact .inr (.inl ⟨hn, transact_read_ok tx hn h0 h1⟩)
      | fail sent report => exact .inr (.inr (.inr ⟨hn, report, transact_read_fails tx hn h0 h1⟩))

/-! ## Registers and commands, when the transport succeeds -/

@[simp] theorem opcodeOf_rRegister (P : Params) : opcodeOf P .rRegister = 0x00#8 := rfl
@[simp] theorem opcodeOf_wRegister (P : Params) : opcodeOf P .wRegister = 0x20#8 := rfl

theorem writeReg_ok {s : State} (a : RegAddr) (data : List Byte)
    (h : s.env.io s.env.ioCount = .ok) :
    writeReg a data s = .done () (s.framed 1 0 (writeFrame a data)) := by
  simp [writeReg, transact_write_ok _ h, writeFrame, regCommand]

theorem writeNamed_ok {s : State} (id : RegisterId) (data : List Byte)
    (h : s.env.io s.env.ioCount = .ok) :
    writeNamed id data s = .done () (s.framed 1 0 (writeFrame (addressOf s.params id) data)) :=
  writeReg_ok _ _ h

theorem readReg_ok {s : State} (a : RegAddr) {n : Nat} (hn : n ≠ 0)
    (h0 : s.env.io s.env.ioCount = .ok) (h1 : s.env.io (s.env.ioCount + 1) = .ok) :
    readReg a n s = .done (s.env.rxBytes n) (s.framed 2 n (readFrame a (s.env.rxBytes n))) := by
  simp [readReg, transact_read_ok _ hn h0 h1, readFrame, regCommand]

theorem readByte_ok {s : State} (id : RegisterId)
    (h0 : s.env.io s.env.ioCount = .ok) (h1 : s.env.io (s.env.ioCount + 1) = .ok) :
    readByte id s = .done (s.env.rx s.env.rxCount)
      (s.framed 2 1 (readFrame (addressOf s.params id) [s.env.rx s.env.rxCount])) := by
  simp [readByte, readReg_ok _ Nat.one_ne_zero h0 h1, Env.rxBytes]

theorem sendOnly_ok {s : State} (c : Byte) (tx : List Byte) (h : s.env.io s.env.ioCount = .ok) :
    sendOnly c tx s = .done () (s.framed 1 0 (busFrame (c :: tx) [])) := by
  simp [sendOnly, command, transact_write_ok _ h]

theorem sendNamed_ok {s : State} (c : CommandId) (h : s.env.io s.env.ioCount = .ok) :
    sendNamed c s = .done () (s.framed 1 0 (busFrame [opcodeOf s.params c] [])) :=
  sendOnly_ok _ _ h

theorem command_read_ok {s : State} (c : Byte) {n : Nat} (hn : n ≠ 0)
    (h0 : s.env.io s.env.ioCount = .ok) (h1 : s.env.io (s.env.ioCount + 1) = .ok) :
    command c [] n s = .done (s.env.rxBytes n) (s.framed 2 n (busFrame [c] (s.env.rxBytes n))) :=
  transact_read_ok _ hn h0 h1

theorem command_zero_ok {s : State} (c : Byte) (h : s.env.io s.env.ioCount = .ok) :
    command c [] 0 s = .done [] (s.framed 1 0 (busFrame [c] [])) :=
  transact_write_ok _ h

theorem setBits_ok {s : State} (id : RegisterId) (mask : Byte)
    (h0 : s.env.io s.env.ioCount = .ok) (h1 : s.env.io (s.env.ioCount + 1) = .ok)
    (h2 : s.env.io (s.env.ioCount + 2) = .ok) :
    setBits id mask s = .done ()
      (s.framed 3 1 (readFrame (addressOf s.params id) [s.env.rx s.env.rxCount] ++
        writeFrame (addressOf s.params id) [s.env.rx s.env.rxCount ||| mask])) := by
  simp [setBits, readByte_ok _ h0 h1, writeNamed_ok, h2]

theorem clearBits_ok {s : State} (id : RegisterId) (mask : Byte)
    (h0 : s.env.io s.env.ioCount = .ok) (h1 : s.env.io (s.env.ioCount + 1) = .ok)
    (h2 : s.env.io (s.env.ioCount + 2) = .ok) :
    clearBits id mask s = .done ()
      (s.framed 3 1 (readFrame (addressOf s.params id) [s.env.rx s.env.rxCount] ++
        writeFrame (addressOf s.params id) [s.env.rx s.env.rxCount &&& ~~~mask])) := by
  simp [clearBits, readByte_ok _ h0 h1, writeNamed_ok, h2]

theorem readByte_fails {s : State} {sent report : Nat} (id : RegisterId)
    (h0 : s.env.io s.env.ioCount = .ok) (h1 : s.env.io (s.env.ioCount + 1) = .fail sent report) :
    readByte id s = .raised (.transportFailure report)
      (s.framed 2 0 (readFrame (addressOf s.params id) [])) := by
  simp [readByte, readReg, transact_read_fails _ Nat.one_ne_zero h0 h1, regCommand, readFrame]

theorem readByte_write_fails {s : State} {sent report : Nat} (id : RegisterId)
    (h : s.env.io s.env.ioCount = .fail sent report) :
    readByte id s = .raised (.transportFailure report)
      (s.framed 1 0 (brokenFrame [0x00#8 ||| (addressOf s.params id).setWidth 8] sent)) := by
  simp [readByte, readReg, transact_write_fails _ _ h, regCommand]

theorem writeNamed_fails {s : State} {sent report : Nat} (id : RegisterId) (data : List Byte)
    (h : s.env.io s.env.ioCount = .fail sent report) :
    writeNamed id data s = .raised (.transportFailure report)
      (s.framed 1 0 (brokenFrame ((0x20#8 ||| (addressOf s.params id).setWidth 8) :: data) sent)) := by
  simp [writeNamed, writeReg, transact_write_fails _ _ h, regCommand]

theorem sendOnly_fails {s : State} {sent report : Nat} (c : Byte) (tx : List Byte)
    (h : s.env.io s.env.ioCount = .fail sent report) :
    sendOnly c tx s = .raised (.transportFailure report) (s.framed 1 0 (brokenFrame (c :: tx) sent)) := by
  simp [sendOnly, command, transact_write_fails _ _ h]

theorem flushTxIfAckPayloads_ok {s : State}
    (h0 : s.env.io s.env.ioCount = .ok) (h1 : s.env.io (s.env.ioCount + 1) = .ok)
    (h2 : bitOf (s.env.rx s.env.rxCount) s.params.bEnAckPay = true →
      s.env.io (s.env.ioCount + 2) = .ok) :
    flushTxIfAckPayloads s = .done ()
      (s.framed (2 + if bitOf (s.env.rx s.env.rxCount) s.params.bEnAckPay then 1 else 0) 1
        (readFrame 0x1D#5 [s.env.rx s.env.rxCount] ++
          if bitOf (s.env.rx s.env.rxCount) s.params.bEnAckPay then busFrame [0xE1#8] [] else [])) := by
  by_cases hb : bitOf (s.env.rx s.env.rxCount) s.params.bEnAckPay = true
  · have h2 := h2 hb
    simp [flushTxIfAckPayloads, readAckPayloads, readByte_ok, h0, h1, hb, sendNamed_ok, h2, addressOf,
      opcodeOf]
  · simp [flushTxIfAckPayloads, readAckPayloads, readByte_ok, h0, h1, hb, addressOf]

/-! ## Bytes composed of constants -/

theorem clearAllFlags_eq : clearAllFlags = 0x70#8 := by decide
theorem clearMaxRt_eq : clearMaxRt = 0x10#8 := by decide
theorem setupAwCode_five : setupAwCode 5 = 3 := by decide

theorem setupAwCode_of_range {n : BitVec 3} (h2 : 2 ≤ n.toNat) (h5 : n.toNat ≤ 5) :
    setupAwCode n.toNat = n.toNat - 2 := by
  have : ∀ n : BitVec 3, 2 ≤ n.toNat ∧ n.toNat ≤ 5 → setupAwCode n.toNat = n.toNat - 2 := by decide
  exact this n ⟨h2, h5⟩

/-! ## Acceptance -/

theorem requestRefusal_none {i : Instr} {s : State} (hr : s.running = none) (hw : i.WellFormed) :
    requestRefusal i s = none := by
  simp [requestRefusal, hr, hw]

theorem hostRefusal_none {i : Instr} {s : State} (hr : s.running = none)
    (hl : s.life.initialised = true) (hw : i.WellFormed) : hostRefusal i s = none := by
  simp [hostRefusal, requestRefusal_none hr hw, hl]

@[simp] theorem accept_none (body : State → Ended Response) (s : State) :
    accept none body s = .next (finish (body s.begin)) := rfl

@[simp] theorem accept_some (r : Refusal) (body : State → Ended Response) (s : State) :
    accept (some r) body s = .refused r := rfl

/-- An idle block that answers after a frame is `after` of that frame. -/
theorem respond_framed_begin {s : State} (hs : Idle s) (m n : Nat) (es : List Event) (r : Response) :
    ((s.begin).framed m n es).respond r = s.after m n es r := by
  obtain ⟨hr, hf, hc⟩ := hs
  cases s
  simp_all [State.respond, State.framed, State.begin, State.after]

/-- A polling block whose `write` ends after a frame is `ended` of that frame. -/
theorem respond_framed_polling {w : PendingWrite} {s : State} (hs : Polling w s) (m n : Nat)
    (es : List Event) (r : Response) : (s.framed m n es).respond r = s.ended m n es r := by
  obtain ⟨-, -, hc⟩ := hs
  cases s
  simp_all [State.respond, State.framed, State.ended, State.after]

/-- An idle block that answers with no bus activity is `after` of nothing. -/
theorem respond_begin {s : State} (hs : Idle s) (r : Response) :
    (s.begin).respond r = s.after 0 0 [] r := by
  obtain ⟨hr, hf, hc⟩ := hs
  cases s
  simp_all [State.begin, State.respond, State.after]

/-- A ready block runs the body of a well-formed host operation. -/
theorem hostOp_ready {i : Instr} {s : State} (hs : Ready s) (hw : i.WellFormed)
    (body : State → Ended Response) : hostOp i body s = .next (finish (body s.begin)) := by
  simp [hostOp, hostRefusal_none hs.1.1 hs.2 hw]

/-- An idle block runs the body of a well-formed bus command. -/
theorem busOp_idle {i : Instr} {s : State} (hs : Idle s) (hw : i.WellFormed)
    (body : State → Ended Response) : busOp i body s = .next (finish (body s.begin)) := by
  simp [busOp, requestRefusal_none hs.1 hw]

theorem ioOk_zero {m : Nat} {s : State} (h : IoOk (m + 1) s) : s.env.io s.env.ioCount = .ok :=
  h 0 (Nat.succ_pos m)

end Sys2Proof.Machine
end

