-- ==== Sys2Proof/Laws/Frames.lean ====
section
/-! SUPPORT. What bus activity leaves unchanged: one relation, one lemma for each shared operation, and the
rules to compose them. -/

namespace Sys2Proof.Machine

/-! ## Events -/

theorem scanFrames_append (p : FramePhase) (es fs : List Event) :
    scanFrames p (es ++ fs) = (scanFrames p es).bind fun q => scanFrames q fs := by
  induction es generalizing p with
  | nil => rfl
  | cons e es ih =>
    simp only [List.cons_append, scanFrames]
    cases p.next e <;> simp [ih]

theorem scanFrames_append_outside {es fs : List Event}
    (h : scanFrames .outside es = some .outside) (h' : scanFrames .outside fs = some .outside) :
    scanFrames .outside (es ++ fs) = some .outside := by
  simp [scanFrames_append, h, h']

theorem scanFrames_more (tx : List Byte) :
    scanFrames .sentMore (tx.map .tx ++ [.csRelease]) = some .outside := by
  induction tx with
  | nil => rfl
  | cons b tx ih => simpa [scanFrames, FramePhase.next] using ih

theorem scanFrames_reading (rx : List Byte) :
    scanFrames .reading (rx.map .rx ++ [.csRelease]) = some .outside := by
  induction rx with
  | nil => rfl
  | cons b rx ih => simpa [scanFrames, FramePhase.next] using ih

/-- A frame that only writes is a whole frame. -/
theorem scanFrames_write (tx : List Byte) :
    scanFrames .outside (busFrame tx []) = some .outside := by
  match tx with
  | [] => rfl
  | [_] => rfl
  | b :: c :: tx => simpa [busFrame, scanFrames, FramePhase.next] using scanFrames_more tx

/-- A frame that reads after its command byte is a whole frame. -/
theorem scanFrames_read (c : Byte) (rx : List Byte) :
    scanFrames .outside (busFrame [c] rx) = some .outside := by
  cases rx with
  | nil => rfl
  | cons b rx => simpa [busFrame, scanFrames, FramePhase.next] using scanFrames_reading rx

theorem enableAfter_append (c : Ce) (es fs : List Event) :
    enableAfter c (es ++ fs) = enableAfter (enableAfter c es) fs := by
  induction es generalizing c with
  | nil => rfl
  | cons e es ih => cases e <;> simp [enableAfter, ih]

/-- Events that leave the enable line alone. -/
abbrev NoEnable (es : List Event) : Prop := Event.ceHigh ∉ es ∧ Event.ceLow ∉ es

theorem enableAfter_noEnable (c : Ce) {es : List Event} (h : NoEnable es) : enableAfter c es = c := by
  induction es with
  | nil => rfl
  | cons e es ih =>
    have h' : NoEnable es := ⟨fun m => h.1 (List.mem_cons_of_mem _ m), fun m => h.2 (List.mem_cons_of_mem _ m)⟩
    cases e with
    | ceHigh => exact absurd List.mem_cons_self h.1
    | ceLow => exact absurd List.mem_cons_self h.2
    | csAssert => exact ih h'
    | csRelease => exact ih h'
    | tx b => exact ih h'
    | rx b => exact ih h'

theorem busFrame_noEnable (tx rx : List Byte) : NoEnable (busFrame tx rx) := by
  simp [NoEnable, busFrame]

/-! ## The relation -/

/-- `t` is `s` after bus activity alone: whole frames were emitted and answers drawn, and every other field
is as it was; chip-select is released if it was. -/
structure BusOnly (s t : State) : Prop where
  dh : t.dh = s.dh
  life : t.life = s.life
  txFsm : t.txFsm = s.txFsm
  csn : s.csn = .released → t.csn = .released
  ce : t.ce = s.ce
  running : t.running = s.running
  params : t.params = s.params
  port : t.port = s.port
  response : t.response = s.response
  trace : ∃ es, t.trace = s.trace ++ es ∧ scanFrames .outside es = some .outside ∧ NoEnable es
  env : ∃ m n, t.env = s.env.took m n

theorem BusOnly.refl (s : State) : BusOnly s s where
  dh := rfl
  life := rfl
  txFsm := rfl
  csn := id
  ce := rfl
  running := rfl
  params := rfl
  port := rfl
  response := rfl
  trace := ⟨[], by simp, rfl, by simp [NoEnable]⟩
  env := ⟨0, 0, by simp⟩

theorem BusOnly.trans {s t u : State} (h : BusOnly s t) (h' : BusOnly t u) : BusOnly s u where
  dh := h'.dh.trans h.dh
  life := h'.life.trans h.life
  txFsm := h'.txFsm.trans h.txFsm
  csn := fun c => h'.csn (h.csn c)
  ce := h'.ce.trans h.ce
  running := h'.running.trans h.running
  params := h'.params.trans h.params
  port := h'.port.trans h.port
  response := h'.response.trans h.response
  trace := by
    obtain ⟨es, he, ho, hn⟩ := h.trace
    obtain ⟨fs, hf, ho', hn'⟩ := h'.trace
    exact ⟨es ++ fs, by rw [hf, he, List.append_assoc], scanFrames_append_outside ho ho',
      by simp [NoEnable, hn.1, hn.2, hn'.1, hn'.2]⟩
  env := by
    obtain ⟨m, n, he⟩ := h.env
    obtain ⟨m', n', he'⟩ := h'.env
    exact ⟨m + m', n + n', by rw [he', he, Env.took_took]⟩

theorem BusOnly.framed (m n : Nat) {es : List Event} (s : State)
    (ho : scanFrames .outside es = some .outside) (hn : NoEnable es) : BusOnly s (s.framed m n es) where
  dh := rfl
  life := rfl
  txFsm := rfl
  csn := fun _ => rfl
  ce := rfl
  running := rfl
  params := rfl
  port := rfl
  response := rfl
  trace := ⟨es, rfl, ho, hn⟩
  env := ⟨m, n, rfl⟩

/-- A piece followed by another is bus activity if both are. -/
theorem BusOnly.andThen {α β : Type} {s : State} {r : Ended α} {f : α → State → Ended β}
    (h : BusOnly s r.state) (h' : ∀ a t, r = .done a t → BusOnly t (f a t).state) :
    BusOnly s (r.andThen f).state := by
  cases r with
  | done a t => exact h.trans (h' a t rfl)
  | raised e t => exact h

@[simp] theorem Ended.state_map {α β : Type} (g : α → β) (r : Ended α) : (r.map g).state = r.state := by
  cases r <;> rfl

@[simp] theorem Ended.state_returning {α : Type} (v : α → Value) (r : Ended α) :
    (r.returning v).state = r.state := Ended.state_map _ r

@[simp] theorem Ended.state_returningNothing {α : Type} (r : Ended α) :
    r.returningNothing.state = r.state := Ended.state_map _ r

/-! ## The shared operations -/

/-- A transaction that writes only, or that reads after one command byte, is bus activity. -/
theorem transact_busOnly {tx : List Byte} {n : Nat} (h : n = 0 ∨ ∃ c, tx = [c]) (s : State) :
    BusOnly s (transact tx n s).state := by
  rcases transact_cases tx n s with ⟨_, e⟩ | ⟨hn, e⟩ | ⟨sent, report, e⟩ | ⟨hn, report, e⟩ <;>
    rw [e] <;> apply BusOnly.framed
  · exact scanFrames_write tx
  · exact busFrame_noEnable _ _
  · obtain ⟨c, rfl⟩ := h.resolve_left hn
    exact scanFrames_read c _
  · exact busFrame_noEnable _ _
  · exact scanFrames_write _
  · exact busFrame_noEnable _ _
  · exact scanFrames_write tx
  · exact busFrame_noEnable _ _

theorem command_busOnly (c : Byte) (n : Nat) (s : State) : BusOnly s (command c [] n s).state :=
  transact_busOnly (.inr ⟨c, rfl⟩) s

theorem sendOnly_busOnly (c : Byte) (tx : List Byte) (s : State) : BusOnly s (sendOnly c tx s).state := by
  simpa [sendOnly, command] using transact_busOnly (tx := c :: tx) (.inl rfl) s

theorem sendNamed_busOnly (c : CommandId) (s : State) : BusOnly s (sendNamed c s).state :=
  sendOnly_busOnly _ _ s

theorem readReg_busOnly (a : RegAddr) (n : Nat) (s : State) : BusOnly s (readReg a n s).state :=
  transact_busOnly (.inr ⟨_, rfl⟩) s

theorem writeReg_busOnly (a : RegAddr) (data : List Byte) (s : State) :
    BusOnly s (writeReg a data s).state := by
  simpa [writeReg] using transact_busOnly (tx := regCommand (opcodeOf s.params .wRegister) a :: data) (.inl rfl) s

theorem readByte_busOnly (id : RegisterId) (s : State) : BusOnly s (readByte id s).state := by
  simpa [readByte] using readReg_busOnly _ 1 s

theorem writeNamed_busOnly (id : RegisterId) (data : List Byte) (s : State) :
    BusOnly s (writeNamed id data s).state :=
  writeReg_busOnly _ _ s

theorem setBits_busOnly (id : RegisterId) (mask : Byte) (s : State) :
    BusOnly s (setBits id mask s).state :=
  (readByte_busOnly id s).andThen fun _ t _ => writeNamed_busOnly id _ t

theorem clearBits_busOnly (id : RegisterId) (mask : Byte) (s : State) :
    BusOnly s (clearBits id mask s).state :=
  (readByte_busOnly id s).andThen fun _ t _ => writeNamed_busOnly id _ t

theorem readDynamicPayloads_busOnly (s : State) : BusOnly s (readDynamicPayloads s).state := by
  simpa [readDynamicPayloads] using readByte_busOnly .feature s

theorem readAckPayloads_busOnly (s : State) : BusOnly s (readAckPayloads s).state := by
  simpa [readAckPayloads] using readByte_busOnly .feature s

theorem clearInterrupts_busOnly (s : State) : BusOnly s (clearInterrupts s).state :=
  writeNamed_busOnly .status _ s

theorem flushTxIfAckPayloads_busOnly (s : State) : BusOnly s (flushTxIfAckPayloads s).state :=
  (readAckPayloads_busOnly s).andThen fun enabled t _ => by
    cases enabled
    · exact BusOnly.refl t
    · exact sendNamed_busOnly .flushTx t

theorem restorePipe0_busOnly (s : State) : BusOnly s (restorePipe0 s).state := by
  unfold restorePipe0
  cases s.dh.pipe0ReadingAddress with
  | none => exact BusOnly.refl s
  | some a => exact writeNamed_busOnly _ a s

theorem writePayloadWidth_busOnly (p : Pipe) (s : State) : BusOnly s (writePayloadWidth p s).state :=
  writeNamed_busOnly _ _ s

theorem writePayloadWidths_busOnly (ps : List Pipe) (s : State) :
    BusOnly s (writePayloadWidths ps s).state := by
  induction ps generalizing s with
  | nil => exact BusOnly.refl s
  | cons p ps ih => exact (writePayloadWidth_busOnly p s).andThen fun _ t _ => ih t

theorem readLength_busOnly (s : State) : BusOnly s (readLength s).state :=
  (readDynamicPayloads_busOnly s).andThen fun dynamic t _ => by
    cases dynamic
    · exact BusOnly.refl t
    · simpa using command_busOnly (opcodeOf t.params .rRxPlWid) 1 t

theorem validateAndPad_busOnly (payload : List Byte) (s : State) :
    BusOnly s (validateAndPad payload s).state :=
  (readDynamicPayloads_busOnly s).andThen fun dynamic t _ => by
    split <;> exact BusOnly.refl t

end Sys2Proof.Machine
end

