-- ==== Sys2Proof/Laws/Exec.lean ====
section
/-! SUPPORT. Inversion of `exec`: what an accepted instruction leaves, once for the instructions that are bus
activity alone and once for each of the others. -/

namespace Sys2Proof.Machine

/-! ## Acceptance -/

theorem accept_next {ref : Option Refusal} {body : State → Ended Response} {s t : State}
    (h : accept ref body s = .next t) : ref = none ∧ t = finish (body s.begin) := by
  cases ref with
  | none => exact ⟨rfl, by simpa using h.symm⟩
  | some r => simp at h

theorem requestRefusal_eq_none {i : Instr} {s : State} (h : requestRefusal i s = none) :
    s.running = none ∧ i.WellFormed := by
  unfold requestRefusal at h
  cases hr : s.running with
  | none => simp [hr] at h; exact ⟨rfl, h⟩
  | some w => simp [hr] at h

theorem hostRefusal_eq_none {i : Instr} {s : State} (h : hostRefusal i s = none) :
    s.running = none ∧ i.WellFormed ∧ s.life.initialised = true := by
  unfold hostRefusal at h
  cases hq : requestRefusal i s with
  | some r => simp [hq] at h
  | none =>
    obtain ⟨hr, hw⟩ := requestRefusal_eq_none hq
    cases hl : s.life.initialised with
    | true => exact ⟨hr, hw, rfl⟩
    | false => simp [hq, hl] at h

/-- An operation ends with a response; a raise is one whose kind is raised. -/
theorem finish_eq (r : Ended Response) :
    (∃ t resp, r = .done resp t ∧ finish r = t.respond resp) ∨
    (∃ e t, r = .raised e t ∧ finish r = t.respond e.response) := by
  cases r with
  | done resp t => exact .inl ⟨t, resp, rfl, rfl⟩
  | raised e t => exact .inr ⟨e, t, rfl, rfl⟩

theorem finish_respond (r : Ended Response) : ∃ resp, finish r = r.state.respond resp := by
  cases r with
  | done resp t => exact ⟨resp, rfl⟩
  | raised e t => exact ⟨e.response, rfl⟩

/-- The body of an accepted operation that is bus activity leaves bus activity and a response. -/
theorem accept_busOnly {ref : Option Refusal} {body : State → Ended Response} {s t : State}
    (hb : ∀ u, BusOnly u (body u).state) (h : accept ref body s = .next t) :
    ref = none ∧ ∃ u r, BusOnly s.begin u ∧ t = u.respond r := by
  obtain ⟨hr, ht⟩ := accept_next h
  obtain ⟨resp, hf⟩ := finish_respond (body s.begin)
  exact ⟨hr, _, resp, hb s.begin, ht.trans hf⟩

/-! ## Instructions that are bus activity alone -/

/-- The instructions whose meaning is bus activity and a response, and nothing else. -/
def plain : Instr → Bool
  | .setAddressWidth _ | .openReadingPipe _ _ | .write _ _ _ | .init | .startListening
  | .stopListening | .teardown => false
  | _ => true

theorem busOp_running {i : Instr} {body : State → Ended Response} {s t : State}
    (hb : ∀ u, BusOnly u (body u).state) (h : busOp i body s = .next t) :
    s.running = none ∧ ∃ u r, BusOnly s.begin u ∧ t = u.respond r :=
  have ⟨hr, hu⟩ := accept_busOnly hb h
  ⟨(requestRefusal_eq_none hr).1, hu⟩

theorem hostOp_running {i : Instr} {body : State → Ended Response} {s t : State}
    (hb : ∀ u, BusOnly u (body u).state) (h : hostOp i body s = .next t) :
    s.running = none ∧ ∃ u r, BusOnly s.begin u ∧ t = u.respond r :=
  have ⟨hr, hu⟩ := accept_busOnly hb h
  ⟨(hostRefusal_eq_none hr).1, hu⟩

theorem dataAvailable_running {s t : State} (h : execDataAvailable s = .next t) :
    s.running = none ∧ ∃ u r, BusOnly s.begin u ∧ t = u.respond r := by
  unfold execDataAvailable at h
  cases hq : hostRefusal .dataAvailable s with
  | some r => simp [hq] at h
  | none =>
    refine ⟨(hostRefusal_eq_none hq).1, ?_⟩
    have hb := readByte_busOnly .status s.begin
    cases hr : readByte .status s.begin with
    | raised e u =>
      rw [hr] at hb
      simp [hq, hr] at h
      exact ⟨u, e.response, hb, h.symm⟩
    | done v u =>
      rw [hr] at hb
      simp only [hq, hr] at h
      split at h
      · exact ⟨u, _, hb, by simpa using h.symm⟩
      · split at h
        · exact ⟨u, _, hb, by simpa using h.symm⟩
        · cases h

/-- An instruction that is bus activity alone leaves bus activity and a response. -/
theorem exec_plain {i : Instr} {s t : State} (hp : plain i = true) (h : exec i s = .next t) :
    s.running = none ∧ ∃ u r, BusOnly s.begin u ∧ t = u.respond r := by
  cases i with
  | cmdRRegister a n =>
    replace h : execCmdRRegister a n s = .next t := h
    unfold execCmdRRegister at h
    exact busOp_running (fun u => by simpa using readReg_busOnly a _ u) h
  | cmdWRegister a d =>
    replace h : execCmdWRegister a d s = .next t := h
    unfold execCmdWRegister at h
    exact busOp_running (fun u => by simpa using writeReg_busOnly a d u) h
  | cmdRRxPayload n =>
    replace h : execCmdRRxPayload n s = .next t := h
    unfold execCmdRRxPayload at h
    exact busOp_running (fun u => by simpa using command_busOnly _ _ u) h
  | cmdWTxPayload d =>
    replace h : execCmdWTxPayload d s = .next t := h
    unfold execCmdWTxPayload at h
    exact busOp_running (fun u => by simpa using sendOnly_busOnly _ d u) h
  | cmdWTxPayloadNoack d =>
    replace h : execCmdWTxPayloadNoack d s = .next t := h
    unfold execCmdWTxPayloadNoack at h
    exact busOp_running (fun u => by simpa using sendOnly_busOnly _ d u) h
  | cmdRRxPlWid =>
    replace h : execCmdRRxPlWid s = .next t := h
    unfold execCmdRRxPlWid at h
    exact busOp_running (fun u => by simpa using command_busOnly _ _ u) h
  | cmdWAckPayload p d =>
    replace h : execCmdWAckPayload p d s = .next t := h
    unfold execCmdWAckPayload at h
    exact busOp_running (fun u => by simpa using sendOnly_busOnly _ d u) h
  | cmdFlushTx =>
    replace h : execCmdFlushTx s = .next t := h
    unfold execCmdFlushTx at h
    exact busOp_running (fun u => by simpa using sendNamed_busOnly _ u) h
  | cmdFlushRx =>
    replace h : execCmdFlushRx s = .next t := h
    unfold execCmdFlushRx at h
    exact busOp_running (fun u => by simpa using sendNamed_busOnly _ u) h
  | cmdReuseTxPl =>
    replace h : execCmdReuseTxPl s = .next t := h
    unfold execCmdReuseTxPl at h
    exact busOp_running (fun u => by simpa using sendNamed_busOnly _ u) h
  | cmdActivate =>
    replace h : execCmdActivate s = .next t := h
    unfold execCmdActivate at h
    exact busOp_running (fun u => by simpa [activate] using sendOnly_busOnly _ _ u) h
  | cmdNop =>
    replace h : execCmdNop s = .next t := h
    unfold execCmdNop at h
    exact busOp_running (fun u => by simpa using sendNamed_busOnly _ u) h
  | readRegister a n =>
    replace h : execReadRegister a n s = .next t := h
    unfold execReadRegister at h
    exact hostOp_running (fun u => by simpa using readReg_busOnly _ _ u) h
  | writeRegister a v =>
    replace h : execWriteRegister a v s = .next t := h
    unfold execWriteRegister at h
    exact hostOp_running (fun u => by simpa using writeReg_busOnly _ _ u) h
  | sendCommand c n =>
    replace h : execSendCommand c n s = .next t := h
    unfold execSendCommand at h
    exact hostOp_running (fun u => by simpa using command_busOnly _ _ u) h
  | setChannel ch =>
    replace h : execSetChannel ch s = .next t := h
    unfold execSetChannel at h
    exact hostOp_running (fun u => by simpa [writeChannel] using writeNamed_busOnly _ _ u) h
  | channel =>
    replace h : execChannel s = .next t := h
    unfold execChannel at h
    exact hostOp_running (fun u => by simpa using readByte_busOnly _ u) h
  | rfSetup d p =>
    replace h : execRfSetup d p s = .next t := h
    unfold execRfSetup at h
    refine hostOp_running ?_ h
    intro u
    split
    · simpa using writeNamed_busOnly _ _ u
    · exact BusOnly.refl u
  | datarate =>
    replace h : execDatarate s = .next t := h
    unfold execDatarate at h
    exact hostOp_running (fun u => by simpa using readByte_busOnly _ u) h
  | crcLength =>
    replace h : execCrcLength s = .next t := h
    unfold execCrcLength at h
    exact hostOp_running (fun u => (readByte_busOnly _ u).andThen fun _ v _ => by
      simpa using readByte_busOnly _ v) h
  | setCrcLength len =>
    replace h : execSetCrcLength len s = .next t := h
    unfold execSetCrcLength at h
    exact hostOp_running (fun u => by
      simpa using (readByte_busOnly _ u).andThen fun _ v _ => writeNamed_busOnly _ _ v) h
  | setRetries d c =>
    replace h : execSetRetries d c s = .next t := h
    unfold execSetRetries at h
    exact hostOp_running (fun u => by simpa using writeNamed_busOnly _ _ u) h
  | addressWidth =>
    replace h : execAddressWidth s = .next t := h
    unfold execAddressWidth at h
    refine hostOp_running ?_ h
    exact BusOnly.refl
  | closeReadingPipe p =>
    replace h : execCloseReadingPipe p s = .next t := h
    unfold execCloseReadingPipe at h
    exact hostOp_running (fun u => by simpa using clearBits_busOnly _ _ u) h
  | openWritingPipe a =>
    replace h : execOpenWritingPipe a s = .next t := h
    unfold execOpenWritingPipe at h
    have hb : ∀ u, BusOnly u (((writeNamed (.rxAddrP 0) a u).andThen fun _ t =>
        (writeNamed .txAddr a t).andThen fun _ => writePayloadWidth 0).returningNothing).state :=
      fun u => by
        simpa using (writeNamed_busOnly _ a u).andThen fun _ v _ =>
          (writeNamed_busOnly _ a v).andThen fun _ w _ => writePayloadWidth_busOnly 0 w
    obtain ⟨hr, hu⟩ := accept_busOnly hb h
    refine ⟨?_, hu⟩
    unfold addressRefusal at hr
    cases hq : hostRefusal (.openWritingPipe a) s with
    | some r => simp [hq] at hr
    | none => exact (hostRefusal_eq_none hq).1
  | read =>
    replace h : execRead s = .next t := h
    unfold execRead at h
    exact hostOp_running (fun u => (readLength_busOnly u).andThen fun n v _ =>
      (command_busOnly _ n v).andThen fun _ w _ => by simpa using clearInterrupts_busOnly w) h
  | setAckPayload p d =>
    replace h : execSetAckPayload p d s = .next t := h
    unfold execSetAckPayload at h
    refine hostOp_running ?_ h
    intro u
    split
    · exact BusOnly.refl u
    · simpa using sendOnly_busOnly _ d u
  | flushTx =>
    replace h : execFlushTx s = .next t := h
    unfold execFlushTx at h
    exact hostOp_running (fun u => by simpa using sendNamed_busOnly _ u) h
  | flushRx =>
    replace h : execFlushRx s = .next t := h
    unfold execFlushRx at h
    exact hostOp_running (fun u => by simpa using sendNamed_busOnly _ u) h
  | reuseTxPayload =>
    replace h : execReuseTxPayload s = .next t := h
    unfold execReuseTxPayload at h
    exact hostOp_running (fun u => by simpa using sendNamed_busOnly _ u) h
  | status =>
    replace h : execStatus s = .next t := h
    unfold execStatus at h
    exact hostOp_running (fun u => by simpa using readByte_busOnly _ u) h
  | dataAvailable => exact dataAvailable_running h
  | interruptFlags =>
    replace h : execInterruptFlags s = .next t := h
    unfold execInterruptFlags at h
    exact hostOp_running (fun u => by simpa using readByte_busOnly _ u) h
  | fifoFlags =>
    replace h : execFifoFlags s = .next t := h
    unfold execFifoFlags at h
    exact hostOp_running (fun u => by simpa using readByte_busOnly _ u) h
  | clearInterruptFlags =>
    replace h : execClearInterruptFlags s = .next t := h
    unfold execClearInterruptFlags at h
    exact hostOp_running (fun u => by simpa using clearInterrupts_busOnly u) h
  | receivedPower =>
    replace h : execReceivedPower s = .next t := h
    unfold execReceivedPower at h
    exact hostOp_running (fun u => by simpa using readByte_busOnly _ u) h
  | observeTx =>
    replace h : execObserveTx s = .next t := h
    unfold execObserveTx at h
    exact hostOp_running (fun u => by simpa using readByte_busOnly _ u) h
  | dynamicPayloadsEnabled =>
    replace h : execDynamicPayloadsEnabled s = .next t := h
    unfold execDynamicPayloadsEnabled at h
    exact hostOp_running (fun u => by simpa using readDynamicPayloads_busOnly u) h
  | ackPayloadsEnabled =>
    replace h : execAckPayloadsEnabled s = .next t := h
    unfold execAckPayloadsEnabled at h
    exact hostOp_running (fun u => by simpa using readAckPayloads_busOnly u) h
  | setAddressWidth n => cases hp
  | openReadingPipe p a => cases hp
  | write p m o => cases hp
  | init => cases hp
  | startListening => cases hp
  | stopListening => cases hp
  | teardown => cases hp

/-! ## The others, one by one -/

/-- `s` with another DeviceHandle. -/
def State.withHandle (d : DeviceHandle) (s : State) : State := { s with dh := d }

section WithHandle
variable (d : DeviceHandle) (s : State)
@[simp] theorem State.withHandle_dh : (s.withHandle d).dh = d := rfl
@[simp] theorem State.withHandle_life : (s.withHandle d).life = s.life := rfl
@[simp] theorem State.withHandle_txFsm : (s.withHandle d).txFsm = s.txFsm := rfl
@[simp] theorem State.withHandle_csn : (s.withHandle d).csn = s.csn := rfl
@[simp] theorem State.withHandle_ce : (s.withHandle d).ce = s.ce := rfl
@[simp] theorem State.withHandle_running : (s.withHandle d).running = s.running := rfl
@[simp] theorem State.withHandle_params : (s.withHandle d).params = s.params := rfl
@[simp] theorem State.withHandle_port : (s.withHandle d).port = s.port := rfl
@[simp] theorem State.withHandle_response : (s.withHandle d).response = s.response := rfl
@[simp] theorem State.withHandle_trace : (s.withHandle d).trace = s.trace := rfl
@[simp] theorem State.withHandle_env : (s.withHandle d).env = s.env := rfl
end WithHandle

/-- Bus activity before and after a change of the handle alone is bus activity from the changed handle. -/
theorem BusOnly.withHandle {s t : State} (d : DeviceHandle) (h : BusOnly s t) :
    BusOnly (s.withHandle d) (t.withHandle d) where
  dh := rfl
  life := h.life
  txFsm := h.txFsm
  csn := h.csn
  ce := h.ce
  running := h.running
  params := h.params
  port := h.port
  response := h.response
  trace := h.trace
  env := h.env

theorem withHandle_self (s : State) : s.withHandle s.dh = s := rfl

/-- `writeAddressWidth`: the width is cached if the write is done, and only then (R127). -/
theorem writeAddressWidth_cases (n : Nat) (s : State) :
    (∃ u, BusOnly s u ∧ writeAddressWidth n s = .done () (u.setAddressWidth (setupAwCode n + 2))) ∨
    (∃ e u, BusOnly s u ∧ writeAddressWidth n s = .raised e u) := by
  have hb := writeNamed_busOnly .setupAw [BitVec.ofNat 8 (setupAwCode n)] s
  unfold writeAddressWidth
  cases hr : writeNamed .setupAw [BitVec.ofNat 8 (setupAwCode n)] s with
  | done a u => rw [hr] at hb; exact .inl ⟨u, hb, rfl⟩
  | raised e u => rw [hr] at hb; exact .inr ⟨e, u, hb, rfl⟩

/-- What `init` does with the handle before its width is written. -/
def loadedHandle (s : State) : DeviceHandle :=
  { s.dh with staticPayloadSize := clampedSize s.params, pipe0ReadingAddress := none }

theorem loadHandle_eq (s : State) : loadHandle s = s.withHandle (loadedHandle s) := rfl

/-- Everything `init`'s sequence can do: bus activity, with the handle loaded, and its width 5 if the SETUP_AW
write was reached and done; if the sequence is done the width is 5 (R191). -/
theorem initSequence_cases (s : State) :
    (∃ u, BusOnly (s.withHandle (initHandle s)) u ∧ initSequence s = .done () u) ∨
    (∃ e u, (BusOnly (s.withHandle (initHandle s)) u ∨ BusOnly (s.withHandle (loadedHandle s)) u) ∧
      initSequence s = .raised e u) := by
  have ha : BusOnly (loadHandle s) (activate (loadHandle s)).state := sendOnly_busOnly _ _ _
  unfold initSequence
  cases hr : activate (loadHandle s) with
  | raised e u =>
    rw [hr] at ha
    exact .inr ⟨e, u, .inr (by rw [← loadHandle_eq]; exact ha), rfl⟩
  | done x v =>
    rw [hr] at ha
    rcases writeAddressWidth_cases 5 v with ⟨w, hw, e⟩ | ⟨er, w, hw, e⟩
    · have hvw := ha.trans hw
      have hstart : BusOnly (s.withHandle (initHandle s)) (w.setAddressWidth (setupAwCode 5 + 2)) := by
        have hk := hvw.withHandle (initHandle s)
        have he : w.setAddressWidth (setupAwCode 5 + 2) = w.withHandle (initHandle s) := by
          show { w with dh := _ } = { w with dh := _ }
          rw [hvw.dh]; rfl
        rw [he]; exact hk
      have hrest : ∀ t, BusOnly t ((writeChannel t.params.initialChannel t).andThen fun _ s =>
          (writePayloadWidths allPipes s).andThen fun _ s =>
          (disableDynamicPayloads s).andThen fun _ s =>
          (enableAutoAckAll s).andThen fun _ s =>
          (writeNamed .config [configInit s.params] s).andThen fun _ s =>
          (clearInterrupts s).andThen fun _ s =>
          (sendNamed .flushRx s).andThen fun _ s =>
          sendNamed .flushTx s).state := fun t =>
        (writeNamed_busOnly _ _ t).andThen fun _ s _ =>
        (writePayloadWidths_busOnly _ s).andThen fun _ s _ =>
        (clearBits_busOnly _ _ s).andThen fun _ s _ =>
        (writeNamed_busOnly _ _ s).andThen fun _ s _ =>
        (writeNamed_busOnly _ _ s).andThen fun _ s _ =>
        (clearInterrupts_busOnly s).andThen fun _ s _ =>
        (sendNamed_busOnly _ s).andThen fun _ s _ => sendNamed_busOnly _ s
      have hall := hstart.trans (hrest (w.setAddressWidth (setupAwCode 5 + 2)))
      simp only [Ended.andThen_done, e]
      revert hall
      generalize Ended.andThen (writeChannel _ _) _ = r
      intro hall
      cases r with
      | done a t => exact .inl ⟨t, hall, rfl⟩
      | raised er t => exact .inr ⟨er, t, .inl hall, rfl⟩
    · simp only [Ended.andThen_done, e, Ended.andThen_raised]
      exact .inr ⟨er, w, .inr (by rw [← loadHandle_eq]; exact ha.trans hw), rfl⟩

/-- Everything `set_address_width` can leave (R127). -/
theorem exec_setAddressWidth {n : BitVec 3} {s t : State} (h : exec (.setAddressWidth n) s = .next t) :
    s.running = none ∧ 2 ≤ n.toNat ∧ n.toNat ≤ 5 ∧ s.life.initialised = true ∧
    ∃ u, BusOnly s.begin u ∧
      (t = (u.setAddressWidth n.toNat).respond (.ok .nothing) ∨ ∃ e : Error, t = u.respond e.response) := by
  replace h : execSetAddressWidth n s = .next t := h
  unfold execSetAddressWidth at h
  obtain ⟨hr, ht⟩ := accept_next h
  obtain ⟨hn, hw, hl⟩ := hostRefusal_eq_none hr
  have hrange : 2 ≤ n.toNat ∧ n.toNat ≤ 5 := by
    simp only [Instr.WellFormed, Instr.illFormed?] at hw
    split at hw
    · assumption
    · cases hw
  have hcode : setupAwCode n.toNat + 2 = n.toNat := by
    have : ∀ n : BitVec 3, 2 ≤ n.toNat ∧ n.toNat ≤ 5 → setupAwCode n.toNat + 2 = n.toNat := by decide
    exact this n hrange
  refine ⟨hn, hrange.1, hrange.2, hl, ?_⟩
  rcases writeAddressWidth_cases n.toNat s.begin with ⟨u, hu, e⟩ | ⟨er, u, hu, e⟩
  · exact ⟨u, hu, .inl (by rw [ht, e, hcode]; rfl)⟩
  · exact ⟨u, hu, .inr ⟨er, by rw [ht, e]; rfl⟩⟩

/-- Everything `open_reading_pipe` can leave: bus activity, with pipe 0's address cached if its write is
done (R140). -/
theorem exec_openReadingPipe {p : Pipe} {a : List Byte} {s t : State}
    (h : exec (.openReadingPipe p a) s = .next t) :
    s.running = none ∧ s.life.initialised = true ∧ (p.val ≤ 1 → a.length = s.dh.addressWidth) ∧
    ∃ u r, t = u.respond r ∧
      (BusOnly s.begin u ∨
        (p.val = 0 ∧ BusOnly (s.begin.withHandle { s.dh with pipe0ReadingAddress := some a }) u)) := by
  replace h : execOpenReadingPipe p a s = .next t := h
  unfold execOpenReadingPipe at h
  obtain ⟨hr, ht⟩ := accept_next h
  unfold addressRefusal at hr
  cases hq : hostRefusal (.openReadingPipe p a) s with
  | some r => simp [hq] at hr
  | none =>
    obtain ⟨hn, hw, hl⟩ := hostRefusal_eq_none hq
    simp only [hq] at hr
    refine ⟨hn, hl, ?_, ?_⟩
    · intro hp
      simpa [hp] using hr
    · obtain ⟨resp, hf⟩ := finish_respond (((writeNamed (.rxAddrP p) (pipeAddressBytes p a) s.begin).andThen fun _ t =>
        (writePayloadWidth p (cachePipe0 p a t)).andThen fun _ =>
        setBits .enRxaddr (pipeMask p)).returningNothing)
      refine ⟨_, resp, ht.trans hf, ?_⟩
      have hb := writeNamed_busOnly (.rxAddrP p) (pipeAddressBytes p a) s.begin
      cases he : writeNamed (.rxAddrP p) (pipeAddressBytes p a) s.begin with
      | raised e u => rw [he] at hb; exact .inl hb
      | done x u =>
        rw [he] at hb
        have hrest : ∀ v, BusOnly v ((writePayloadWidth p v).andThen fun _ =>
            setBits .enRxaddr (pipeMask p)).state := fun v =>
          (writePayloadWidth_busOnly p v).andThen fun _ w _ => setBits_busOnly _ _ w
        simp only [Ended.state_returningNothing, Ended.andThen_done]
        by_cases hp : p.val = 0
        · refine .inr ⟨hp, ?_⟩
          have hc : cachePipe0 p a u = u.withHandle { s.dh with pipe0ReadingAddress := some a } := by
            have hd : u.dh = s.dh := hb.dh
            simp only [cachePipe0, hp, if_true]
            rw [← hd]; rfl
          rw [hc]
          exact (hb.withHandle _).trans (hrest _)
        · refine .inl ?_
          have hc : cachePipe0 p a u = u := by simp [cachePipe0, hp]
          rw [hc]
          exact hb.trans (hrest u)

/-- Everything `init` can leave (R191, R219). -/
theorem exec_init {s t : State} (h : exec .init s = .next t) :
    s.running = none ∧ 1 ≤ s.params.staticPayloadSizeReq ∧
    ∃ u, (BusOnly (s.begin.withHandle (initHandle s)) u ∧ t = (u.setLife .standby).respond (.ok .nothing)) ∨
      ((BusOnly (s.begin.withHandle (initHandle s)) u ∨ BusOnly (s.begin.withHandle (loadedHandle s)) u) ∧
        ∃ e : Error, t = u.respond e.response) := by
  replace h : execInit s = .next t := h
  unfold execInit at h
  obtain ⟨hr, ht⟩ := accept_next h
  unfold initRefusal at hr
  cases hq : requestRefusal .init s with
  | some r => simp [hq] at hr
  | none =>
    simp only [hq] at hr
    refine ⟨(requestRefusal_eq_none hq).1, by split at hr <;> [cases hr; omega], ?_⟩
    rcases initSequence_cases s.begin with ⟨u, hu, e⟩ | ⟨er, u, hu, e⟩
    · exact ⟨u, .inl ⟨hu, by rw [ht, e]; rfl⟩⟩
    · exact ⟨u, .inr ⟨hu, er, by rw [ht, e]; rfl⟩⟩

/-- Everything `teardown` can leave (R196, R219). -/
theorem exec_teardown {s t : State} (h : exec .teardown s = .next t) :
    s.running = none ∧ 1 ≤ s.params.staticPayloadSizeReq ∧ s.life.initialised = true ∧
    ∃ u, (BusOnly (s.begin.dropEnable.withHandle (initHandle s)) u ∧
        t = (u.setLife .tornDown).respond (.ok .nothing)) ∨
      ((BusOnly (s.begin.dropEnable.withHandle (initHandle s)) u ∨
          BusOnly (s.begin.dropEnable.withHandle (loadedHandle s)) u) ∧
        ∃ e : Error, t = u.respond e.response) := by
  replace h : execTeardown s = .next t := h
  unfold execTeardown at h
  obtain ⟨hr, ht⟩ := accept_next h
  unfold teardownRefusal at hr
  cases hq : hostRefusal .teardown s with
  | some r => simp [hq] at hr
  | none =>
    obtain ⟨hn, -, hl⟩ := hostRefusal_eq_none hq
    simp only [hq] at hr
    refine ⟨hn, by split at hr <;> [cases hr; omega], hl, ?_⟩
    rcases initSequence_cases s.begin.dropEnable with ⟨u, hu, e⟩ | ⟨er, u, hu, e⟩
    · have hb := writeNamed_busOnly .rfCh [0#8] u
      cases hw : writeNamed .rfCh [0#8] u with
      | done x v =>
        rw [hw] at hb
        exact ⟨v, .inl ⟨hu.trans hb, by rw [ht, e]; simp [writeChannel, hw, Ended.thenLife]⟩⟩
      | raised er v =>
        rw [hw] at hb
        exact ⟨v, .inr ⟨.inl (hu.trans hb), er, by
          rw [ht, e]; simp [writeChannel, hw, Ended.thenLife, State.raise]⟩⟩
    · exact ⟨u, .inr ⟨hu, er, by rw [ht, e]; rfl⟩⟩

/-- A sequence of bus activity that ends in a lifecycle state. -/
theorem thenLife_cases {l : Life} {α : Type} {s : State} {r : Ended α} (h : BusOnly s r.state) :
    ∃ u, BusOnly s u ∧ (finish (r.thenLife l) = (u.setLife l).respond (.ok .nothing) ∨
      ∃ e : Error, finish (r.thenLife l) = u.respond e.response) := by
  cases r with
  | done a t => exact ⟨t, h, .inl rfl⟩
  | raised e t => exact ⟨t, h, .inr ⟨e, rfl⟩⟩

/-- Everything `start_listening` can leave: a raise before CE_HIGH, a raise after it, or LISTENING (R194). -/
theorem exec_startListening {s t : State} (h : exec .startListening s = .next t) :
    s.running = none ∧ s.life.initialised = true ∧
    ∃ u, (BusOnly s.begin u ∧ ∃ e : Error, t = u.respond e.response) ∨
      (∃ v, BusOnly s.begin v ∧ BusOnly v.raiseEnable u ∧
        (t = (u.setLife .listening).respond (.ok .nothing) ∨ ∃ e : Error, t = u.respond e.response)) := by
  replace h : execStartListening s = .next t := h
  unfold execStartListening at h
  obtain ⟨hr, ht⟩ := accept_next h
  obtain ⟨hn, -, hl⟩ := hostRefusal_eq_none hr
  refine ⟨hn, hl, ?_⟩
  have h1 := setBits_busOnly .config (bitMask s.begin.params.bPrimRx) s.begin
  cases e1 : setBits .config (bitMask s.begin.params.bPrimRx) s.begin with
  | raised e u => rw [e1] at h1; exact ⟨u, .inl ⟨h1, e, by rw [ht, e1]; rfl⟩⟩
  | done _ s1 =>
    rw [e1] at h1
    have h2 := clearInterrupts_busOnly s1
    cases e2 : clearInterrupts s1 with
    | raised e u =>
      rw [e2] at h2
      exact ⟨u, .inl ⟨h1.trans h2, e, by rw [ht, e1]; simp [e2, Ended.thenLife, State.raise]⟩⟩
    | done _ s2 =>
      rw [e2] at h2
      have h3 := restorePipe0_busOnly s2
      cases e3 : restorePipe0 s2 with
      | raised e u =>
        rw [e3] at h3
        exact ⟨u, .inl ⟨(h1.trans h2).trans h3, e, by
          rw [ht, e1]; simp [e2, e3, Ended.thenLife, State.raise]⟩⟩
      | done _ s3 =>
        rw [e3] at h3
        obtain ⟨u, hu, hf⟩ := thenLife_cases (l := .listening) (flushTxIfAckPayloads_busOnly s3.raiseEnable)
        refine ⟨u, .inr ⟨s3, (h1.trans h2).trans h3, hu, ?_⟩⟩
        have : t = finish ((flushTxIfAckPayloads s3.raiseEnable).thenLife .listening) := by
          rw [ht, e1]; simp [e2, e3]
        rw [this]; exact hf

/-- Everything `stop_listening` can leave (R195). -/
theorem exec_stopListening {s t : State} (h : exec .stopListening s = .next t) :
    s.running = none ∧ s.life.initialised = true ∧
    ∃ u, BusOnly s.begin.dropEnable u ∧
      (t = (u.setLife .standby).respond (.ok .nothing) ∨ ∃ e : Error, t = u.respond e.response) := by
  replace h : execStopListening s = .next t := h
  unfold execStopListening at h
  obtain ⟨hr, ht⟩ := accept_next h
  obtain ⟨hn, -, hl⟩ := hostRefusal_eq_none hr
  refine ⟨hn, hl, ?_⟩
  have hb : BusOnly s.begin.dropEnable ((flushTxIfAckPayloads s.begin.dropEnable).andThen fun _ s =>
      (clearBits .config (bitMask s.params.bPrimRx) s).andThen fun _ s =>
      writeNamed .enRxaddr [allPipesMask] s).state :=
    (flushTxIfAckPayloads_busOnly _).andThen fun _ u _ =>
      (clearBits_busOnly _ _ u).andThen fun _ v _ => writeNamed_busOnly _ _ v
  obtain ⟨u, hu, hf⟩ := thenLife_cases (l := .standby) hb
  exact ⟨u, hu, by rw [ht]; exact hf⟩

/-! ## `write` -/

/-- Everything WRITE and PULSE_ENABLE can do: `:ok` after the pulse, or a raise before it (R150, R218). -/
theorem transmit_cases (w : PendingWrite) (s : State) :
    ∃ u, BusOnly (s.setTxFsm .write) u ∧
      (transmit w s = .done (.ok .okSymbol) (pulseEnable (u.setTxFsm .pulseEnable)) ∨
        ∃ e, transmit w s = .raised e u) := by
  have h1 := validateAndPad_busOnly w.payload (s.setTxFsm .write)
  unfold transmit
  cases e1 : validateAndPad w.payload (s.setTxFsm .write) with
  | raised e u => rw [e1] at h1; exact ⟨u, h1, .inr ⟨e, rfl⟩⟩
  | done data t =>
    rw [e1] at h1
    have h2 := sendOnly_busOnly (opcodeOf t.params (payloadCommand w.ackMode)) data t
    simp only [Ended.andThen_done]
    cases e2 : sendOnly (opcodeOf t.params (payloadCommand w.ackMode)) data t with
    | raised e u => rw [e2] at h2; exact ⟨u, h1.trans h2, .inr ⟨e, rfl⟩⟩
    | done _ u => rw [e2] at h2; exact ⟨u, h1.trans h2, .inl rfl⟩

/-- Everything one iteration of the polling loop can leave: it answers without the pulse, it transmits, it
times out, or it polls on (R150, R151). -/
theorem pollOnce_cases (w : PendingWrite) (s : State) :
    ∃ u, BusOnly s u ∧
      ((∃ r, r ≠ .ok .okSymbol ∧ pollOnce w s = u.respond r) ∨
       (∃ v, BusOnly (u.setTxFsm .write) v ∧
          (pollOnce w s = (pulseEnable (v.setTxFsm .pulseEnable)).respond (.ok .okSymbol) ∨
            ∃ e : Error, pollOnce w s = v.respond e.response)) ∨
       (u.readClock.env.now - w.t0 > w.timeout ∧ pollOnce w s = u.readClock.respond .transmitTimeout) ∨
       pollOnce w s = u.readClock) := by
  have hb := readByte_busOnly .status s
  unfold pollOnce
  cases hr : readByte .status s with
  | raised e t =>
    rw [hr] at hb
    exact ⟨t, hb, .inl ⟨e.response, by cases e <;> simp [Error.response], rfl⟩⟩
  | done v t =>
    rw [hr] at hb
    dsimp only
    split
    · obtain ⟨u, hu, h | ⟨e, h⟩⟩ := transmit_cases w t
      · exact ⟨t, hb, .inr (.inl ⟨u, hu, .inl (by rw [h]; rfl)⟩)⟩
      · exact ⟨t, hb, .inr (.inl ⟨u, hu, .inr ⟨e, by rw [h]; rfl⟩⟩)⟩
    · split
      · have h2 := writeNamed_busOnly .status [clearMaxRt] t
        cases e2 : writeNamed .status [clearMaxRt] t with
        | done x u =>
          rw [e2] at h2
          exact ⟨u, hb.trans h2, .inl ⟨.maxRetransmitsReached, by simp, by simp [reportMaxRetransmits, e2]⟩⟩
        | raised e u =>
          rw [e2] at h2
          exact ⟨u, hb.trans h2, .inl ⟨e.response, by cases e <;> simp [Error.response],
            by simp [reportMaxRetransmits, e2, State.raise]⟩⟩
      · split
        · exact ⟨t, hb, .inr (.inr (.inl ⟨by assumption, rfl⟩))⟩
        · exact ⟨t, hb, .inr (.inr (.inr rfl))⟩

/-- `write` is its start and one iteration of the loop (R150). -/
theorem exec_write {payload : List Byte} {mode : AckMode} {timeout : Option Nat} {s t : State}
    (h : exec (.write payload mode timeout) s = .next t) :
    s.running = none ∧ s.life.initialised = true ∧
    t = pollOnce (pendingWrite payload mode timeout s) (startWrite (pendingWrite payload mode timeout s) s) := by
  replace h : execWrite payload mode timeout s = .next t := h
  unfold execWrite at h
  cases hq : hostRefusal (.write payload mode timeout) s with
  | some r => simp [hq] at h
  | none =>
    obtain ⟨hn, -, hl⟩ := hostRefusal_eq_none hq
    simp [hq] at h
    exact ⟨hn, hl, h.symm⟩

/-! ## Runs -/

theorem core_run_succ {n : Nat} {s t : State} (h : step s = .next t) :
    Host.Core.run Sys2Proof.core (n + 1) s = Host.Core.run Sys2Proof.core n t := by
  have : Sys2Proof.core.step s = .next t := h
  simp only [Host.Core.run, this]

/-- A step is one iteration of the running `write`, or the next request, or idleness. -/
theorem step_cases {s t : State} (h : step s = .next t) :
    (∃ w, s.running = some w ∧ t = pollOnce w s) ∨
    (s.running = none ∧ s.port = [] ∧ t = s) ∨
    (∃ rq rest i, s.running = none ∧ s.port = rq :: rest ∧ decode rq = .ok i ∧
      exec i { s with port := rest } = .next t) := by
  unfold step fetch at h
  cases hr : s.running with
  | some w => simp [hr] at h; exact .inl ⟨w, rfl, h.symm⟩
  | none =>
    cases hp : s.port with
    | nil => simp [hr, hp] at h; exact .inr (.inl ⟨rfl, rfl, h.symm⟩)
    | cons rq rest =>
      cases hd : decode rq with
      | error r => simp [hr, hp, hd] at h
      | ok i => simp [hr, hp, hd] at h; exact .inr (.inr ⟨rq, rest, i, rfl, rfl, hd, h⟩)

end Sys2Proof.Machine
end

