-- ==== Sys2Proof/Laws/PerInstr.lean ====
section
/-! SUPPORT. Per instruction: the first byte of the request an instruction is encoded as is the word of its row
of spec/opcode_table.json, in that row's space (R61 to R65, R74, R75). -/

namespace Sys2Proof.Laws.OpcodeRow

/-- The instruction's row is in the table and its request begins with that row's word. -/
def Statement (i : Instr) : Prop :=
  ∃ row ∈ opcodeRows, row.mnemonic = i.mnemonic ∧ row.space = i.space ∧
    ∃ b rest, i.bytes = b :: rest ∧ b &&& row.mask = row.word

/-- An instruction whose first byte is the word of a row of the table meets the statement. -/
theorem of_row {i : Instr} {b : Byte} {rest : List Byte} (row : OpcodeRow) (hrow : row ∈ opcodeRows)
    (hm : row.mnemonic = i.mnemonic) (hs : row.space = i.space) (hb : i.bytes = b :: rest)
    (hw : b &&& row.mask = row.word) : Statement i :=
  ⟨row, hrow, hm, hs, b, rest, hb, hw⟩

theorem cmdRRegister (addr : RegAddr) (len : BitVec 3) : Statement (.cmdRRegister addr len) :=
  of_row ⟨"R_REGISTER", .bus, 0xE0#8, 0x00#8⟩ (by decide) rfl rfl rfl
    ((by decide : ∀ a : RegAddr, (a.setWidth 8) &&& 0xE0#8 = 0x00#8) addr)

theorem cmdWRegister (addr : RegAddr) (data : List Byte) : Statement (.cmdWRegister addr data) :=
  of_row ⟨"W_REGISTER", .bus, 0xE0#8, 0x20#8⟩ (by decide) rfl rfl rfl
    ((by decide : ∀ a : RegAddr, (0x20#8 ||| a.setWidth 8) &&& 0xE0#8 = 0x20#8) addr)

theorem cmdRRxPayload (n : Byte) : Statement (.cmdRRxPayload n) :=
  of_row ⟨"R_RX_PAYLOAD", .bus, 0xFF#8, 0x61#8⟩ (by decide) rfl rfl rfl (by decide)

theorem cmdWTxPayload (data : List Byte) : Statement (.cmdWTxPayload data) :=
  of_row ⟨"W_TX_PAYLOAD", .bus, 0xFF#8, 0xA0#8⟩ (by decide) rfl rfl rfl (by decide)

theorem cmdWTxPayloadNoack (data : List Byte) : Statement (.cmdWTxPayloadNoack data) :=
  of_row ⟨"W_TX_PAYLOAD_NOACK", .bus, 0xFF#8, 0xB0#8⟩ (by decide) rfl rfl rfl (by decide)

theorem cmdRRxPlWid : Statement .cmdRRxPlWid :=
  of_row ⟨"R_RX_PL_WID", .bus, 0xFF#8, 0x60#8⟩ (by decide) rfl rfl rfl (by decide)

theorem cmdWAckPayload (pipe : Pipe) (data : List Byte) : Statement (.cmdWAckPayload pipe data) :=
  of_row ⟨"W_ACK_PAYLOAD", .bus, 0xF8#8, 0xA8#8⟩ (by decide) rfl rfl rfl
    ((by decide : ∀ a : Pipe, (0xA8#8 ||| encPipe a) &&& 0xF8#8 = 0xA8#8) pipe)

theorem cmdFlushTx : Statement .cmdFlushTx :=
  of_row ⟨"FLUSH_TX", .bus, 0xFF#8, 0xE1#8⟩ (by decide) rfl rfl rfl (by decide)

theorem cmdFlushRx : Statement .cmdFlushRx :=
  of_row ⟨"FLUSH_RX", .bus, 0xFF#8, 0xE2#8⟩ (by decide) rfl rfl rfl (by decide)

theorem cmdReuseTxPl : Statement .cmdReuseTxPl :=
  of_row ⟨"REUSE_TX_PL", .bus, 0xFF#8, 0xE3#8⟩ (by decide) rfl rfl rfl (by decide)

theorem cmdActivate : Statement .cmdActivate :=
  of_row ⟨"ACTIVATE", .bus, 0xFF#8, 0x50#8⟩ (by decide) rfl rfl rfl (by decide)

theorem cmdNop : Statement .cmdNop :=
  of_row ⟨"NOP", .bus, 0xFF#8, 0xFF#8⟩ (by decide) rfl rfl rfl (by decide)

theorem readRegister (id : RegOperand) (length : BitVec 3) : Statement (.readRegister id length) :=
  of_row ⟨"read_register", .host, 0x3F#8, 0x00#8⟩ (by decide) rfl rfl rfl (by decide)

theorem writeRegister (id : RegOperand) (value : RegValue) : Statement (.writeRegister id value) :=
  of_row ⟨"write_register", .host, 0x3F#8, 0x01#8⟩ (by decide) rfl rfl rfl (by decide)

theorem sendCommand (cmd : CmdOperand) (responseLength : Byte) : Statement (.sendCommand cmd responseLength) :=
  of_row ⟨"send_command", .host, 0x3F#8, 0x02#8⟩ (by decide) rfl rfl rfl (by decide)

theorem setChannel (ch : Byte) : Statement (.setChannel ch) :=
  of_row ⟨"set_channel", .host, 0x3F#8, 0x08#8⟩ (by decide) rfl rfl rfl (by decide)

theorem channel : Statement .channel :=
  of_row ⟨"channel", .host, 0x3F#8, 0x09#8⟩ (by decide) rfl rfl rfl (by decide)

theorem rfSetup (datarate : DatarateArg) (power : PowerArg) : Statement (.rfSetup datarate power) :=
  of_row ⟨"rf_setup", .host, 0x3F#8, 0x0A#8⟩ (by decide) rfl rfl rfl (by decide)

theorem datarate : Statement .datarate :=
  of_row ⟨"datarate", .host, 0x3F#8, 0x0B#8⟩ (by decide) rfl rfl rfl (by decide)

theorem crcLength : Statement .crcLength :=
  of_row ⟨"crc_length", .host, 0x3F#8, 0x0C#8⟩ (by decide) rfl rfl rfl (by decide)

theorem setCrcLength (len : CrcArg) : Statement (.setCrcLength len) :=
  of_row ⟨"set_crc_length", .host, 0x3F#8, 0x0D#8⟩ (by decide) rfl rfl rfl (by decide)

theorem setRetries (delay count : BitVec 4) : Statement (.setRetries delay count) :=
  of_row ⟨"set_retries", .host, 0x3F#8, 0x0E#8⟩ (by decide) rfl rfl rfl (by decide)

theorem setAddressWidth (n : BitVec 3) : Statement (.setAddressWidth n) :=
  of_row ⟨"set_address_width", .host, 0x3F#8, 0x0F#8⟩ (by decide) rfl rfl rfl (by decide)

theorem addressWidth : Statement .addressWidth :=
  of_row ⟨"address_width", .host, 0x3F#8, 0x10#8⟩ (by decide) rfl rfl rfl (by decide)

theorem openReadingPipe (pipe : Pipe) (address : List Byte) : Statement (.openReadingPipe pipe address) :=
  of_row ⟨"open_reading_pipe", .host, 0x3F#8, 0x18#8⟩ (by decide) rfl rfl rfl (by decide)

theorem closeReadingPipe (pipe : Pipe) : Statement (.closeReadingPipe pipe) :=
  of_row ⟨"close_reading_pipe", .host, 0x3F#8, 0x19#8⟩ (by decide) rfl rfl rfl (by decide)

theorem openWritingPipe (address : List Byte) : Statement (.openWritingPipe address) :=
  of_row ⟨"open_writing_pipe", .host, 0x3F#8, 0x1A#8⟩ (by decide) rfl rfl rfl (by decide)

theorem write (payload : List Byte) (ackMode : AckMode) (timeout : Option Nat) : Statement (.write payload ackMode timeout) :=
  of_row ⟨"write", .host, 0x3F#8, 0x20#8⟩ (by decide) rfl rfl rfl (by decide)

theorem read : Statement .read :=
  of_row ⟨"read", .host, 0x3F#8, 0x21#8⟩ (by decide) rfl rfl rfl (by decide)

theorem setAckPayload (pipe : Pipe) (payload : List Byte) : Statement (.setAckPayload pipe payload) :=
  of_row ⟨"set_ack_payload", .host, 0x3F#8, 0x22#8⟩ (by decide) rfl rfl rfl (by decide)

theorem flushTx : Statement .flushTx :=
  of_row ⟨"flush_tx", .host, 0x3F#8, 0x23#8⟩ (by decide) rfl rfl rfl (by decide)

theorem flushRx : Statement .flushRx :=
  of_row ⟨"flush_rx", .host, 0x3F#8, 0x24#8⟩ (by decide) rfl rfl rfl (by decide)

theorem reuseTxPayload : Statement .reuseTxPayload :=
  of_row ⟨"reuse_tx_payload", .host, 0x3F#8, 0x25#8⟩ (by decide) rfl rfl rfl (by decide)

theorem status : Statement .status :=
  of_row ⟨"status", .host, 0x3F#8, 0x28#8⟩ (by decide) rfl rfl rfl (by decide)

theorem dataAvailable : Statement .dataAvailable :=
  of_row ⟨"data_available?", .host, 0x3F#8, 0x29#8⟩ (by decide) rfl rfl rfl (by decide)

theorem interruptFlags : Statement .interruptFlags :=
  of_row ⟨"interrupt_flags", .host, 0x3F#8, 0x2A#8⟩ (by decide) rfl rfl rfl (by decide)

theorem fifoFlags : Statement .fifoFlags :=
  of_row ⟨"fifo_flags", .host, 0x3F#8, 0x2B#8⟩ (by decide) rfl rfl rfl (by decide)

theorem clearInterruptFlags : Statement .clearInterruptFlags :=
  of_row ⟨"clear_interrupt_flags", .host, 0x3F#8, 0x2C#8⟩ (by decide) rfl rfl rfl (by decide)

theorem receivedPower : Statement .receivedPower :=
  of_row ⟨"received_power", .host, 0x3F#8, 0x2D#8⟩ (by decide) rfl rfl rfl (by decide)

theorem observeTx : Statement .observeTx :=
  of_row ⟨"observe_tx", .host, 0x3F#8, 0x2E#8⟩ (by decide) rfl rfl rfl (by decide)

theorem dynamicPayloadsEnabled : Statement .dynamicPayloadsEnabled :=
  of_row ⟨"dynamic_payloads_enabled?", .host, 0x3F#8, 0x2F#8⟩ (by decide) rfl rfl rfl (by decide)

theorem ackPayloadsEnabled : Statement .ackPayloadsEnabled :=
  of_row ⟨"ack_payloads_enabled?", .host, 0x3F#8, 0x30#8⟩ (by decide) rfl rfl rfl (by decide)

theorem init : Statement .init :=
  of_row ⟨"init", .host, 0x3F#8, 0x38#8⟩ (by decide) rfl rfl rfl (by decide)

theorem startListening : Statement .startListening :=
  of_row ⟨"start_listening", .host, 0x3F#8, 0x39#8⟩ (by decide) rfl rfl rfl (by decide)

theorem stopListening : Statement .stopListening :=
  of_row ⟨"stop_listening", .host, 0x3F#8, 0x3A#8⟩ (by decide) rfl rfl rfl (by decide)

theorem teardown : Statement .teardown :=
  of_row ⟨"teardown", .host, 0x3F#8, 0x3B#8⟩ (by decide) rfl rfl rfl (by decide)

end Sys2Proof.Laws.OpcodeRow
end

