-- ==== Sys2Proof/Tests/Slice0.lean ====
section
/-! SUPPORT. The model's own tests, each a theorem: ill-formed terms the check refuses, words written out from
the encodings of the spec, vectors of 95_test_vectors.md (the id is in the docstring), and one witness for
every statement that has hypotheses, with each of its clauses met at a boundary value. -/

namespace Sys2Proof.Machine.Tests

open Sys2Proof Sys2Proof.Machine

/-! ## Helpers -/

/-- A block as `init` leaves it, with an environment. -/
def block (io : List IoAnswer) (rx : List Byte) (ticks : List Nat) : State :=
  { State.reset with
    dh := { State.reset.dh with staticPayloadSize := 32, addressWidth := 5 }
    life := .standby
    env := { State.reset.env with ioScript := io, rxScript := rx, tickScript := ticks } }

/-- Every transport call succeeds. -/
def good (rx : List Byte) : State := block (List.replicate 24 .ok) rx [0, 0]

/-- The k-th transport call fails after one byte, with report 7. -/
def failsAt (k : Nat) (rx : List Byte) : State := block (List.replicate k .ok ++ [.fail 1 7]) rx [0, 0]

/-- Every transport call succeeds, with readings of the clock. -/
def timed (rx : List Byte) (ticks : List Nat) : State := block (List.replicate 24 .ok) rx ticks

/-- A block in which a `write` of one byte, with timeout 5, polls since time 0. -/
def polling (rx : List Byte) (ticks : List Nat) : State :=
  { timed rx ticks with txFsm := .pollFifo, running := some pendingByte }
where
  pendingByte : PendingWrite := { payload := [0xAA#8], ackMode := .ack, timeout := 5, t0 := 0 }

/-- As `polling`, where the k-th transport call fails after one byte, with report 7. -/
def pollingFails (k : Nat) (rx : List Byte) : State :=
  { failsAt k rx with txFsm := .pollFifo, running := some polling.pendingByte }

def withSize (n : Nat) (s : State) : State := s.setStaticPayloadSize n

/-- The instruction ends with that response, and these are the events it emitted. -/
def gives (o : Host.Outcome State Fault Refusal) (r : Response) (es : List Event) : Bool :=
  match o with
  | .next t => t.response == some r && t.trace == es
  | .fault _ => false
  | .refused _ => false

/-- The instruction leaves a state of which `p` holds. -/
def leaves (o : Host.Outcome State Fault Refusal) (p : State → Bool) : Bool :=
  match o with
  | .next t => p t
  | .fault _ => false
  | .refused _ => false

def refuses (o : Host.Outcome State Fault Refusal) (r : Refusal) : Bool :=
  match o with
  | .refused q => q == r
  | .next _ => false
  | .fault _ => false

/-- `[bs]` of the test vectors. -/
def W (bs : List Byte) : List Event := busFrame bs []

/-- `[c <bs]` of the test vectors. -/
def R (c : Byte) (bs : List Byte) : List Event := busFrame [c] bs

/-! ## Well-formedness: one ill-formed term for each check (R77) -/

theorem test_illformed_length :
    (Instr.readRegister (.address 7#5) 0#3).illFormed? = some .length ∧
    (Instr.readRegister (.address 7#5) 6#3).illFormed? = some .length ∧
    (Instr.cmdRRegister 7#5 0#3).illFormed? = some .length := by decide
theorem test_illformed_dataLength :
    (Instr.writeRegister (.address 5#5) (.bytes [])).illFormed? = some .dataLength ∧
    (Instr.cmdWRegister 5#5 [1, 2, 3, 4, 5, 6]).illFormed? = some .dataLength := by decide
theorem test_illformed_width :
    (Instr.setAddressWidth 1#3).illFormed? = some .width ∧
    (Instr.setAddressWidth 6#3).illFormed? = some .width := by decide
theorem test_illformed_addressLength :
    (Instr.openReadingPipe 2 []).illFormed? = some .addressLength ∧
    (Instr.openWritingPipe [1]).illFormed? = some .addressLength := by decide
theorem test_illformed_payloadLength :
    (Instr.cmdWTxPayload (List.replicate 33 0)).illFormed? = some .payloadLength ∧
    (Instr.cmdWTxPayloadNoack (List.replicate 33 0)).illFormed? = some .payloadLength ∧
    (Instr.cmdWAckPayload 0 (List.replicate 33 0)).illFormed? = some .payloadLength := by decide
theorem test_wellformed_boundaries :
    (Instr.readRegister (.address 7#5) 5#3).WellFormed ∧ (Instr.setAddressWidth 2#3).WellFormed ∧
    (Instr.openWritingPipe [1, 2]).WellFormed ∧ (Instr.openReadingPipe 2 [1]).WellFormed ∧
    (Instr.cmdWTxPayload (List.replicate 32 0)).WellFormed := by decide

/-! ## Decoding: a word written out from the spec for every constructor -/

/-- R61 to R65 and table B. -/
theorem test_decode_bus_words :
    decode ⟨.bus, [0b00010111#8, 2#8]⟩ = .ok (.cmdRRegister 0x17#5 1#3) ∧
    decode ⟨.bus, [0b00100111#8, 2#8, 0x70#8]⟩ = .ok (.cmdWRegister 0x07#5 [0x70#8]) ∧
    decode ⟨.bus, [0b01100001#8, 32#8]⟩ = .ok (.cmdRRxPayload 32#8) ∧
    decode ⟨.bus, [0b10100000#8, 1#8, 2#8]⟩ = .ok (.cmdWTxPayload [1#8, 2#8]) ∧
    decode ⟨.bus, [0b10110000#8, 1#8]⟩ = .ok (.cmdWTxPayloadNoack [1#8]) ∧
    decode ⟨.bus, [0b01100000#8]⟩ = .ok .cmdRRxPlWid ∧
    decode ⟨.bus, [0b10101101#8, 9#8]⟩ = .ok (.cmdWAckPayload 5 [9#8]) ∧
    decode ⟨.bus, [0b11100001#8]⟩ = .ok .cmdFlushTx ∧
    decode ⟨.bus, [0b11100010#8]⟩ = .ok .cmdFlushRx ∧
    decode ⟨.bus, [0b11100011#8]⟩ = .ok .cmdReuseTxPl ∧
    decode ⟨.bus, [0b01010000#8]⟩ = .ok .cmdActivate ∧
    decode ⟨.bus, [0b11111111#8]⟩ = .ok .cmdNop := by decide

/-- R75, the operations with operands. -/
theorem test_decode_host_operand_words :
    decode ⟨.host, [0x00#8, 0x0A#8, 6#8]⟩ = .ok (.readRegister (.address 0x0A#5) 5#3) ∧
    decode ⟨.host, [0x01#8, 7#8, 0#8, 0x70#8]⟩ = .ok (.writeRegister (.address 7#5) (.byte 0x70#8)) ∧
    decode ⟨.host, [0x01#8, 0x10#8, 3#8, 1#8, 2#8]⟩ = .ok (.writeRegister (.address 0x10#5) (.bytes [1#8, 2#8])) ∧
    decode ⟨.host, [0x02#8, 0#8, 0x60#8, 1#8]⟩ = .ok (.sendCommand (.opcode 0x60#8) 1#8) ∧
    decode ⟨.host, [0x08#8, 125#8]⟩ = .ok (.setChannel 125#8) ∧
    decode ⟨.host, [0x0A#8, 1#8, 4#8]⟩ = .ok (.rfSetup (.known .rate250kbps) (.level .max)) ∧
    decode ⟨.host, [0x0D#8, 0#8, 0#8, 16#8]⟩ = .ok (.setCrcLength (.number 16)) ∧
    decode ⟨.host, [0x0E#8, 5#8, 15#8]⟩ = .ok (.setRetries 5#4 15#4) ∧
    decode ⟨.host, [0x0F#8, 4#8]⟩ = .ok (.setAddressWidth 3#3) ∧
    decode ⟨.host, [0x18#8, 2#8, 2#8, 0xC3#8]⟩ = .ok (.openReadingPipe 2 [0xC3#8]) ∧
    decode ⟨.host, [0x19#8, 3#8]⟩ = .ok (.closeReadingPipe 3) ∧
    decode ⟨.host, [0x1A#8, 4#8, 1#8, 2#8, 3#8]⟩ = .ok (.openWritingPipe [1#8, 2#8, 3#8]) ∧
    decode ⟨.host, [0x20#8, 0#8, 1#8, 5#8, 0x48#8, 0x49#8]⟩ =
      .ok (.write [0x48#8, 0x49#8] .ack (some 5)) ∧
    decode ⟨.host, [0x22#8, 2#8, 0xAA#8, 0xBB#8]⟩ = .ok (.setAckPayload 2 [0xAA#8, 0xBB#8]) := by decide

/-- R81: identifiers are operands too, and a number that is none is not one. -/
theorem test_decode_identifiers :
    decode ⟨.host, [0x00#8, 39#8, 0#8]⟩ = .ok (.readRegister (.named .status) 1#3) ∧
    decode ⟨.host, [0x00#8, 56#8, 0#8]⟩ = .ok (.readRegister (.named .feature) 1#3) ∧
    decode ⟨.host, [0x00#8, 57#8, 0#8]⟩ = .error .registerAddress ∧
    decode ⟨.host, [0x02#8, 1#8, 7#8, 0#8]⟩ = .ok (.sendCommand (.named .flushTx) 0#8) ∧
    decode ⟨.host, [0x02#8, 1#8, 12#8, 0#8]⟩ = .error .commandId ∧
    decode ⟨.host, [0x02#8, 2#8, 0#8, 0#8]⟩ = .error .commandId := by decide

/-- R75, the operations without operands. -/
theorem test_decode_host_plain_words :
    [0x09, 0x0B, 0x0C, 0x10, 0x21, 0x23, 0x24, 0x25, 0x28, 0x29, 0x2A].map
        (fun b => (decode ⟨.host, [BitVec.ofNat 8 b]⟩).toOption) =
      [some .channel, some .datarate, some .crcLength, some .addressWidth, some .read, some .flushTx,
       some .flushRx, some .reuseTxPayload, some .status, some .dataAvailable, some .interruptFlags] ∧
    [0x2B, 0x2C, 0x2D, 0x2E, 0x2F, 0x30, 0x38, 0x39, 0x3A, 0x3B].map
        (fun b => (decode ⟨.host, [BitVec.ofNat 8 b]⟩).toOption) =
      [some .fifoFlags, some .clearInterruptFlags, some .receivedPower, some .observeTx,
       some .dynamicPayloadsEnabled, some .ackPayloadsEnabled, some .init, some .startListening,
       some .stopListening, some .teardown] := by decide

/-- R79: operands that are left out. V41.10, D30. -/
theorem test_decode_defaults :
    decode ⟨.host, [0x00#8, 7#8, 0#8]⟩ = .ok (.readRegister (.address 7#5) 1#3) ∧
    decode ⟨.host, [0x0F#8, 0#8]⟩ = .ok (.setAddressWidth 5#3) ∧
    decode ⟨.host, [0x0A#8, 0#8, 0#8]⟩ = .ok (.rfSetup (.known .rate1mbps) (.level .max)) ∧
    decode ⟨.host, [0x20#8, 0#8, 0#8, 0xAA#8]⟩ = .ok (.write [0xAA#8] .ack none) := by decide

/-- V30.12: `op_sel` values that are not in the table. -/
theorem test_decode_unlisted_op_sel :
    [0x03, 0x07, 0x11, 0x26, 0x3F].map (fun b => decode ⟨.host, [BitVec.ofNat 8 b]⟩) =
      List.replicate 5 (.error .unknownOpSel) := by decide

/-- R77, V42.4, V43.21, V41.9, V41.11: operands outside the lists. -/
theorem test_decode_bad_operands :
    decode ⟨.host, [0x18#8, 6#8, 2#8, 0xC2#8]⟩ = .error .pipe ∧
    decode ⟨.host, [0x22#8, 6#8, 0xAA#8]⟩ = .error .pipe ∧
    decode ⟨.host, [0x0E#8, 16#8, 0#8]⟩ = .error .nibble ∧
    decode ⟨.host, [0x0F#8, 7#8]⟩ = .error (.illFormed .width) ∧
    decode ⟨.host, [0x20#8, 2#8, 0#8]⟩ = .error .symbol ∧
    decode ⟨.host, [0x21#8, 0#8]⟩ = .error .trailing ∧
    decode ⟨.host, [0x08#8]⟩ = .error .truncated ∧
    decode ⟨.host, []⟩ = .error .empty := by decide

/-- No two rows of one space share a word, and every row is some constructor's. -/
theorem test_rows_disjoint : opcodeRows.Pairwise fun r q => r.disjoint q = true := by decide
theorem test_rows_counted : busRows.length = 12 ∧ (hostRowsA ++ hostRowsB).length = 34 := by decide

/-- V30.1 to V30.3: the command bytes of the encoder. -/
theorem test_encode_command_bytes :
    [0x00#5, 0x07#5, 0x17#5, 0x1D#5, 0x1F#5].map (regCommand 0x00#8) = [0x00, 0x07, 0x17, 0x1D, 0x1F] ∧
    [0x00#5, 0x07#5, 0x17#5, 0x1D#5, 0x1F#5].map (regCommand 0x20#8) = [0x20, 0x27, 0x37, 0x3D, 0x3F] ∧
    allPipes.map (pipeCommand 0xA8#8) = [0xA8, 0xA9, 0xAA, 0xAB, 0xAC, 0xAD] := by decide

/-- The host's two functions on a row of each space: the word decodes, and it runs first after reset. -/
theorem test_table_word_init :
    decodeTableWord 6 0x38 = some .init ∧
    (State.reset.withFetchWord 6 0x38).port = [⟨.host, [0x38#8]⟩] := by decide
theorem test_table_word_bus :
    decodeTableWord 8 0xE1 = some .cmdFlushTx ∧ decodeTableWord 8 0xA8 = some (.cmdWAckPayload 0 []) ∧
    (State.reset.withFetchWord 8 0xE1).port = [⟨.bus, [0xE1#8]⟩] := by decide

/-! ## Composed bytes and decoded fields -/

/-- V30.4 to V30.8. -/
theorem test_rf_setup_values :
    [PowerLevel.min, .low, .high, .max].map (rfSetupValue Params.defaults .rate250kbps) =
      [0x20, 0x22, 0x24, 0x26] ∧
    [PowerLevel.min, .low, .high, .max].map (rfSetupValue Params.defaults .rate2mbps) =
      [0x08, 0x0A, 0x0C, 0x0E] := by decide
theorem test_retries_and_width_codes :
    setupRetrValue 1#4 15#4 = 0x1F#8 ∧ setupRetrValue 15#4 0#4 = 0xF0#8 ∧
    [2, 3, 4, 5].map setupAwCode = [0, 1, 2, 3] := by decide
/-- V30.9 to V30.11. -/
theorem test_masks_and_padding :
    allPipes.map pipeMask = [0x01, 0x02, 0x04, 0x08, 0x10, 0x20] ∧ clearAllFlags = 0x70#8 ∧
    clearMaxRt = 0x10#8 ∧ padTo 4 [0xAA#8] = [0xAA, 0, 0, 0] ∧ padTo 4 [] = [0, 0, 0, 0] := by decide
/-- V41.5, V41.6. -/
theorem test_datarate_precedence :
    [0x00#8, 0x08#8, 0x20#8, 0x28#8, 0xD7#8].map datarateOf =
      [.rate1mbps, .rate2mbps, .rate250kbps, .rate250kbps, .rate1mbps] := by decide
theorem test_crc_modes :
    [(0x08#8, 0x00#8), (0x0C#8, 0x00#8), (0x04#8, 0x00#8), (0x04#8, 0x20#8), (0x00#8, 0x01#8),
     (0x00#8, 0xC0#8)].map (fun p => crcModeOf Params.defaults p.1 p.2) =
      [.crc8, .crc16, .none, .crc16, .crc8, .none] := by decide
/-- V41.8. -/
theorem test_with_crc_keeps_other_bits :
    [CrcMode.crc16, .crc8, .none].map (fun m => withCrc Params.defaults m 0x73#8) =
      [0x7F, 0x7B, 0x73] := by decide
/-- V44.8. -/
theorem test_fifo_flags :
    fifoFlagsOf Params.defaults 0x21#8 = ⟨true, false, false, true⟩ ∧
    fifoFlagsOf Params.defaults 0x12#8 = ⟨false, true, true, false⟩ ∧
    fifoFlagsOf Params.defaults 0xCC#8 = ⟨false, false, false, false⟩ := by decide
/-- V40.11 to V40.14: the bit helpers. -/
theorem test_bit_helpers :
    (setBits .enRxaddr 0x02#8 (good [0x02#8])).state.trace = R 0x02 [0x02] ++ W [0x22, 0x02] ∧
    (clearBits .feature 0x04#8 (good [0xFF#8])).state.trace = R 0x1D [0xFF] ++ W [0x3D, 0xFB] ∧
    (match testBits .feature 0x04#8 (good [0xFB#8]) with
      | .done b t => !b && t.trace == R 0x1D [0xFB]
      | .raised _ _ => false) = true := by decide

/-! ## Bus commands -/

theorem test_bus_read_register :
    gives (exec (.cmdRRegister 0x0A#5 2#3) (good [0xE7, 0xE6])) (.ok (.bytes [0xE7, 0xE6]))
      (R 0x0A [0xE7, 0xE6]) = true := by decide
theorem test_bus_write_register :
    gives (exec (.cmdWRegister 0x10#5 [1, 2]) (good [])) (.ok .nothing) (W [0x30, 1, 2]) = true := by
  decide
theorem test_bus_rx_payload :
    gives (exec (.cmdRRxPayload 2#8) (good [5, 6])) (.ok (.bytes [5, 6])) (R 0x61 [5, 6]) = true := by
  decide
theorem test_bus_tx_payload :
    gives (exec (.cmdWTxPayload [1]) (good [])) (.ok .nothing) (W [0xA0, 1]) = true ∧
    gives (exec (.cmdWTxPayloadNoack [1]) (good [])) (.ok .nothing) (W [0xB0, 1]) = true := by decide
theorem test_bus_width_and_ack :
    gives (exec .cmdRRxPlWid (good [0x20])) (.ok (.bytes [0x20])) (R 0x60 [0x20]) = true ∧
    gives (exec (.cmdWAckPayload 5 [9]) (good [])) (.ok .nothing) (W [0xAD, 9]) = true := by decide
theorem test_bus_plain :
    gives (exec .cmdFlushTx (good [])) (.ok .nothing) (W [0xE1]) = true ∧
    gives (exec .cmdFlushRx (good [])) (.ok .nothing) (W [0xE2]) = true ∧
    gives (exec .cmdReuseTxPl (good [])) (.ok .nothing) (W [0xE3]) = true ∧
    gives (exec .cmdActivate (good [])) (.ok .nothing) (W [0x50, 0x73]) = true ∧
    gives (exec .cmdNop (good [])) (.ok .nothing) (W [0xFF]) = true := by decide

/-! ## Vectors of 95_test_vectors.md -/

/-- V40.2. -/
theorem test_read_register :
    gives (exec (.readRegister (.address 0x0A#5) 5#3) (good [0xE7, 0xE6, 0xE5, 0xE4, 0xE3]))
      (.ok (.bytes [0xE7, 0xE6, 0xE5, 0xE4, 0xE3])) (R 0x0A [0xE7, 0xE6, 0xE5, 0xE4, 0xE3]) = true := by
  decide
/-- V40.15. -/
theorem test_read_register_fails :
    gives (exec (.readRegister (.address 7#5) 1#3) (failsAt 1 [])) (.transportFailure 7) (W [0x07]) = true := by
  decide
/-- V40.4, V40.6: the cached width does not follow a raw write of SETUP_AW. -/
theorem test_write_register :
    gives (exec (.writeRegister (.address 7#5) (.byte 0x70#8)) (good [])) (.ok .nothing) (W [0x27, 0x70]) = true ∧
    leaves (exec (.writeRegister (.address 3#5) (.byte 1#8)) (good [])) (fun t => t.dh.addressWidth == 5) = true := by
  decide
/-- V40.16: a prefix of one byte. -/
theorem test_write_register_fails :
    gives (exec (.writeRegister (.address 5#5) (.byte 0x4C#8)) (failsAt 0 [])) (.transportFailure 7) (W [0x25]) =
      true := by decide
/-- R81: an identifier is replaced by its number, of whatever record: here STATUS at 0x1B. -/
theorem test_identifier_is_replaced :
    gives (exec (.readRegister (.named .status) 1#3)
        { good [0x0E] with params := { Params.defaults with aStatus := 0x1B#5 } })
      (.ok (.bytes [0x0E])) (R 0x1B [0x0E]) = true ∧
    gives (exec (.writeRegister (.named (.rxAddrP 1)) (.bytes [1, 2])) (good [])) (.ok .nothing)
      (W [0x2B, 1, 2]) = true := by decide
/-- V40.8, V40.10. -/
theorem test_send_command :
    gives (exec (.sendCommand (.named .flushRx) 0#8) (good [])) (.ok .nothing) (W [0xE2]) = true ∧
    gives (exec (.sendCommand (.opcode 0x60#8) 1#8) (good [0x20])) (.ok (.bytes [0x20])) (R 0x60 [0x20]) = true := by
  decide
/-- V41.1, V41.2. -/
theorem test_channel :
    gives (exec (.setChannel 0xFF#8) (good [])) (.ok .nothing) (W [0x25, 0xFF]) = true ∧
    gives (exec .channel (good [0x4C])) (.ok (.byte 76#8)) (R 0x05 [0x4C]) = true := by decide
/-- V41.3, V41.4. -/
theorem test_rf_setup :
    gives (exec (.rfSetup (.known .rate2mbps) (.number (-18))) (good [])) (.ok (.byte 0x08#8))
      (W [0x26, 0x08]) = true ∧
    gives (exec (.rfSetup (.known .rate1mbps) (.number (-3))) (good [])) .configRejected [] = true := by
  decide
/-- V60.5: both symbols unknown. -/
theorem test_rf_setup_both_unknown :
    gives (exec (.rfSetup .other .other) (good [])) .configRejected [] = true ∧
    Response.configRejected.code = 5 := by decide
/-- V41.5, S3. -/
theorem test_datarate :
    gives (exec .datarate (good [0x26])) (.ok (.datarate .rate250kbps)) (R 0x06 [0x26]) = true := by decide
/-- V41.6. -/
theorem test_crc_length :
    gives (exec .crcLength (good [0x04, 0x20])) (.ok (.crc .crc16)) (R 0x00 [0x04] ++ R 0x01 [0x20]) =
      true := by decide
/-- V41.7. -/
theorem test_set_crc_length :
    gives (exec (.setCrcLength (.number 8)) (good [0x0F])) (.ok .nothing) (R 0x00 [0x0F] ++ W [0x20, 0x0B]) =
      true ∧
    gives (exec (.setCrcLength .other) (good [0x0F])) (.ok .nothing) (R 0x00 [0x0F] ++ W [0x20, 0x03]) =
      true := by decide
/-- V41.9. -/
theorem test_set_retries :
    gives (exec (.setRetries 5#4 15#4) (good [])) (.ok .nothing) (W [0x24, 0x5F]) = true := by decide
/-- V41.10, S8. -/
theorem test_set_address_width :
    gives (exec (.setAddressWidth 3#3) (good [])) (.ok .nothing) (W [0x23, 0x01]) = true ∧
    leaves (exec (.setAddressWidth 3#3) (good [])) (fun t => t.dh.addressWidth == 3) = true := by decide
/-- V41.12. -/
theorem test_set_address_width_fails :
    leaves (exec (.setAddressWidth 3#3) (failsAt 0 [])) (fun t => t.dh.addressWidth == 5) = true := by decide
/-- V41.13. -/
theorem test_address_width :
    gives (exec .addressWidth (good [])) (.ok (.width 5)) [] = true := by decide
/-- V42.1. -/
theorem test_open_reading_pipe_0 :
    gives (exec (.openReadingPipe 0 [0xE7, 0xE7, 0xE7, 0xE7, 0xE7]) (good [0x02])) (.ok .nothing)
      (W [0x2A, 0xE7, 0xE7, 0xE7, 0xE7, 0xE7] ++ W [0x31, 0x20] ++ R 0x02 [0x02] ++ W [0x22, 0x03]) =
      true := by decide
/-- V42.3. -/
theorem test_open_reading_pipe_4 :
    gives (exec (.openReadingPipe 4 [0xC5, 0xC2, 0xC2, 0xC2, 0xC2]) (withSize 16 (good [0x03]))) (.ok .nothing)
      (W [0x2E, 0xC5] ++ W [0x35, 0x10] ++ R 0x02 [0x03] ++ W [0x22, 0x13]) = true := by decide
/-- V42.6, V42.7. -/
theorem test_close_reading_pipe :
    gives (exec (.closeReadingPipe 0) (good [0x3F])) (.ok .nothing) (R 0x02 [0x3F] ++ W [0x22, 0x3E]) = true ∧
    gives (exec (.closeReadingPipe 3) (good [0x00])) (.ok .nothing) (R 0x02 [0x00] ++ W [0x22, 0x00]) =
      true := by decide
/-- V42.8, V42.9. -/
theorem test_open_writing_pipe :
    gives (exec (.openWritingPipe [1, 2, 3, 4, 5]) (good [])) (.ok .nothing)
      (W [0x2A, 1, 2, 3, 4, 5] ++ W [0x30, 1, 2, 3, 4, 5] ++ W [0x31, 0x20]) = true ∧
    refuses (exec (.openWritingPipe [1, 2, 3]) (good [])) .addressLength = true := by decide
/-- V43.5, V43.8: dynamic mode is not padded; MAX_RT is not looked at when there is room. -/
theorem test_write_sends :
    gives (exec (.write [1, 2, 3, 4, 5] .ack none) (withSize 4 (good [0x1E, 0x04]))) (.ok .okSymbol)
      (R 0x07 [0x1E] ++ R 0x1D [0x04] ++ W [0xA0, 1, 2, 3, 4, 5] ++ [.ceHigh, .ceLow]) = true := by decide
/-- V43.2, V43.3: padding, and the other command. -/
theorem test_write_pads :
    gives (exec (.write [] .noAck none) (withSize 4 (good [0x0E, 0x00]))) (.ok .okSymbol)
      (R 0x07 [0x0E] ++ R 0x1D [0x00] ++ W [0xB0, 0, 0, 0, 0] ++ [.ceHigh, .ceLow]) = true := by decide
/-- V43.4. -/
theorem test_write_oversized :
    gives (exec (.write [1, 2, 3, 4, 5] .ack none) (withSize 4 (good [0x0E, 0x00])))
      (.oversizedPayload 5 4) (R 0x07 [0x0E] ++ R 0x1D [0x00]) = true := by decide
/-- V43.10. -/
theorem test_write_max_rt :
    gives (exec (.write (List.replicate 33 0) .ack none) (good [0x1F])) .maxRetransmitsReached
      (R 0x07 [0x1F] ++ W [0x27, 0x10]) = true := by decide
/-- V43.11: the second iteration, which is the second step, times out. -/
theorem test_write_times_out :
    gives (Host.Core.run Sys2Proof.core 2
        { timed [0x0F, 0x0F] [7, 0, 1] with port := [encode (.write [0xAA] .ack (some 0))] })
      .transmitTimeout (R 0x07 [0x0F] ++ R 0x07 [0x0F]) = true := by decide
/-- V43.14. -/
theorem test_write_payload_fails :
    leaves (exec (.write [0xAA] .ack none) (failsAt 4 [0x0E, 0x00]))
      (fun t => t.ce == .low && t.txFsm == .idle && t.response == some (.transportFailure 7)) = true := by
  decide
/-- V43.15. -/
theorem test_read_static :
    gives (exec .read (withSize 1 (good [0x00, 0x5A]))) (.ok (.bytes [0x5A]))
      (R 0x1D [0x00] ++ R 0x61 [0x5A] ++ W [0x27, 0x70]) = true := by decide
/-- V43.16. -/
theorem test_read_dynamic :
    gives (exec .read (good [0x04, 0x00])) (.ok (.bytes []))
      (R 0x1D [0x04] ++ R 0x60 [0x00] ++ W [0x61] ++ W [0x27, 0x70]) = true := by decide
/-- V43.19, V43.20. -/
theorem test_set_ack_payload :
    gives (exec (.setAckPayload 0 []) (good [])) (.ok .nothing) (W [0xA8]) = true ∧
    gives (exec (.setAckPayload 1 (List.replicate 33 0)) (good [])) (.oversizedPayload 33 32) [] = true := by
  decide
/-- V43.22. -/
theorem test_flushes_and_reuse :
    gives (exec .flushTx (good [])) (.ok .nothing) (W [0xE1]) = true ∧
    gives (exec .flushRx (good [])) (.ok .nothing) (W [0xE2]) = true ∧
    gives (exec .reuseTxPayload (good [])) (.ok .nothing) (W [0xE3]) = true := by decide
/-- V44.1, V44.7. -/
theorem test_status_and_flags :
    gives (exec .status (good [0x0E])) (.ok (.byte 0x0E)) (R 0x07 [0x0E]) = true ∧
    gives (exec .interruptFlags (good [0x6E])) (.ok (.interrupts ⟨true, true, false⟩)) (R 0x07 [0x6E]) =
      true := by decide
/-- V44.2, V44.3, V44.5. -/
theorem test_data_available :
    gives (exec .dataAvailable (good [0x4A])) (.ok (.pipe 5)) (R 0x07 [0x4A]) = true ∧
    gives (exec .dataAvailable (good [0x0F])) (.ok .notAvailable) (R 0x07 [0x0F]) = true ∧
    refuses (exec .dataAvailable (good [0x4C])) .rxPNoUnused = true := by decide
/-- V44.8 to V44.10. -/
theorem test_fifo_clear_power :
    gives (exec .fifoFlags (good [0x11])) (.ok (.fifo ⟨true, false, true, false⟩)) (R 0x17 [0x11]) = true ∧
    gives (exec .clearInterruptFlags (good [])) (.ok .nothing) (W [0x27, 0x70]) = true ∧
    gives (exec .receivedPower (good [0x80])) (.ok (.boolean true)) (R 0x09 [0x80]) = true := by decide
/-- V44.11 to V44.13. -/
theorem test_counters_and_features :
    gives (exec .observeTx (good [0x23])) (.ok (.counters 2 3)) (R 0x08 [0x23]) = true ∧
    gives (exec .dynamicPayloadsEnabled (good [0xFB])) (.ok (.boolean false)) (R 0x1D [0xFB]) = true ∧
    gives (exec .ackPayloadsEnabled (good [0x02])) (.ok (.boolean true)) (R 0x1D [0x02]) = true := by decide
/-- V45.1. -/
theorem test_init :
    gives (exec .init (good [0x00])) (.ok .nothing)
      (W [0x50, 0x73] ++ W [0x23, 3] ++ W [0x25, 0x4C] ++ W [0x31, 0x20] ++ W [0x32, 0x20] ++ W [0x33, 0x20] ++
        W [0x34, 0x20] ++ W [0x35, 0x20] ++ W [0x36, 0x20] ++ R 0x1D [0x00] ++ W [0x3D, 0x00] ++
        W [0x21, 0x3F] ++ W [0x20, 0x0F] ++ W [0x27, 0x70] ++ W [0xE2] ++ W [0xE1]) = true := by decide
/-- V45.7. -/
theorem test_init_fails_third :
    leaves (exec .init { failsAt 2 [] with life := .uninitialized, dh := State.reset.dh })
      (fun t => t.life == .uninitialized && t.dh.addressWidth == 5 && t.dh.staticPayloadSize == 32) =
      true := by decide
/-- V45.9. -/
theorem test_start_listening :
    gives (exec .startListening (good [0x0E, 0x02])) (.ok .nothing)
      (R 0x00 [0x0E] ++ W [0x20, 0x0F] ++ W [0x27, 0x70] ++ [.ceHigh] ++ R 0x1D [0x02] ++ W [0xE1]) = true := by
  decide
/-- V45.10: the cached address is written with its own length. -/
theorem test_start_listening_restores :
    gives (exec .startListening ((good [0x0E, 0x00]).setPipe0Address (some [0xA1, 0xA2, 0xA3]))) (.ok .nothing)
      (R 0x00 [0x0E] ++ W [0x20, 0x0F] ++ W [0x27, 0x70] ++ W [0x2A, 0xA1, 0xA2, 0xA3] ++ [.ceHigh] ++
        R 0x1D [0x00]) = true := by decide
/-- V45.13. -/
theorem test_stop_listening :
    gives (exec .stopListening (good [0x02, 0x7F])) (.ok .nothing)
      ([.ceLow] ++ R 0x1D [0x02] ++ W [0xE1] ++ R 0x00 [0x7F] ++ W [0x20, 0x7E] ++ W [0x22, 0x3F]) = true := by
  decide
/-- V45.14, V45.15. -/
theorem test_teardown :
    leaves (exec .teardown (good [0x00])) (fun t => t.life == .tornDown && t.ce == .low) = true ∧
    refuses (exec .channel { good [] with life := .tornDown }) .notInitialised = true := by decide

/-! ## Witnesses: for every statement with hypotheses, a state and operands that meet them -/

/-- A request of an instruction at the head of the port. -/
def asked (i : Instr) (s : State) : State := { s with port := [encode i] }

/-- The conclusion of a statement is reached: the instruction answers a next state. -/
def answersNext (o : Host.Outcome State Fault Refusal) : Bool := leaves o fun _ => true

theorem test_witness_OnlyInitIsAcceptedOutsideTheLifecycle :
    (State.reset.life = .uninitialized ∧ State.reset.running = none ∧ Instr.status.space = .host ∧
      Instr.status ≠ .init ∧ Instr.status.WellFormed ∧ 1 ≤ State.reset.params.staticPayloadSizeReq) ∧
    (State.setLife .tornDown (good [])).life = .tornDown ∧ (good []).running = none := by decide

theorem test_witness_MeaninglessRequestsAreRefused :
    (polling [] []).running = some polling.pendingByte ∧ (good []).running = none ∧
    (Instr.readRegister (.address 7#5) 6#3).illFormed? = some .length := by decide

theorem test_witness_OperandsOutsideTheirDomainsAreRefused :
    Ready (good []) ∧ (0#3).toNat = 0 ∧ 5 < (6#3).toNat ∧ 5 < [0#8, 1, 2, 3, 4, 5].length ∧ (1#3).toNat < 2 ∧
    ((1 : Pipe).val ≤ 1 ∧ 1 ≤ [1#8].length ∧ [1#8].length ≤ 5 ∧
      [1#8].length ≠ (good []).dh.addressWidth) ∧
    [1#8].length < 2 ∧ (2 ≤ [1#8, 2].length ∧ [1#8, 2].length ≠ (good []).dh.addressWidth) ∧
    15 < (16#8).toNat ∧ 5 < (6#8).toNat := by decide

theorem test_witness_StepRunsTheDecodedInstruction :
    ((asked .status (good [])).running = none ∧ (asked .status (good [])).port = encode .status :: [] ∧
      decode (encode .status) = .ok .status) ∧
    decode ⟨.host, [0x3F#8]⟩ = .error .unknownOpSel ∧ (good []).port = [] ∧
    (polling [] []).running = some polling.pendingByte := by decide

theorem test_witness_DecodeOfEncodeIsTheInstruction :
    (Instr.readRegister (.address 31#5) 5#3).WellFormed ∧
    (Instr.write [0xFF#8] .noAck (some 128)).WellFormed := by decide

theorem test_witness_WhatDecodesIsWellFormed :
    decode ⟨.host, [0x0F#8, 6#8]⟩ = .ok (.setAddressWidth 5#3) ∧
    decode ⟨.bus, [0xFF#8]⟩ = .ok .cmdNop := by decide

theorem test_witness_RegisterMapIsBidirectional :
    admissible { Params.defaults with cWAckPayload := 0xC0#8 } = true ∧
    ({ Params.defaults with cWAckPayload := 0xA9#8 } : Params).cWAckPayload = 0xA9#8 := by decide

theorem test_witness_BusReadCommandsEmitTheirFrame :
    Idle (good [1]) ∧ IoOk 2 (good [1]) ∧ 1 ≤ (1#3).toNat ∧ (5#3).toNat ≤ 5 ∧ 0xFF#8 ≠ 0#8 := by decide

theorem test_witness_BusWriteCommandsEmitTheirFrame :
    Idle (good []) ∧ IoOk 1 (good []) ∧ (1 ≤ [0#8].length ∧ [0#8, 1, 2, 3, 4].length ≤ 5) ∧
    (List.replicate 32 0#8).length ≤ 32 := by decide

theorem test_witness_BusPlainCommandsEmitTheirByte : Idle (good []) ∧ IoOk 1 (good []) := by decide

theorem test_witness_ReadRegisterReadsItsBytes :
    Ready (good [1]) ∧ 1 ≤ (1#3).toNat ∧ (5#3).toNat ≤ 5 ∧ IoOk 2 (good [1]) := by decide

theorem test_witness_WriteRegisterWritesItsBytes :
    Ready (good []) ∧ IoOk 1 (good []) ∧ 1 ≤ [0#8].length ∧ [0#8, 1, 2, 3, 4].length ≤ 5 := by decide

theorem test_witness_SendCommandEmitsTheOpcode :
    Ready (good [1]) ∧ IoOk 2 (good [1]) ∧ 1#8 ≠ 0#8 ∧ 255#8 ≠ 0#8 ∧
    0x60#8 = opcodeOf (good [1]).params .rRxPlWid := by decide

theorem test_witness_OneFrameInstructionsPropagateTransportFailure :
    (Idle (failsAt 0 []) ∧ (failsAt 0 []).life.initialised = true ∧ Instr.status.WellFormed ∧
      soleFrame (failsAt 0 []).params .status = some ([0x07#8], 1) ∧
      (failsAt 0 []).env.io (failsAt 0 []).env.ioCount = .fail 1 7) ∧
    (Idle (failsAt 1 []) ∧ (Instr.cmdRRxPayload 255#8).space = .bus ∧
      (Instr.cmdRRxPayload 255#8).WellFormed ∧
      soleFrame (failsAt 1 []).params (.cmdRRxPayload 255#8) = some ([0x61#8], 255) ∧ 255 ≠ 0 ∧
      IoOk 1 (failsAt 1 []) ∧
      (failsAt 1 []).env.io ((failsAt 1 []).env.ioCount + 1) = .fail 1 7) := by decide

theorem test_witness_SetChannelWritesTheByte : Ready (good []) ∧ IoOk 1 (good []) := by decide

theorem test_witness_ChannelAndStatusAnswerTheByteRead : Ready (good [1]) ∧ IoOk 2 (good [1]) := by decide

theorem test_witness_RfSetupWritesOrRejects :
    (Ready (good []) ∧ IoOk 1 (good []) ∧ datarateSymbol (.known .rate2mbps) = some .rate2mbps ∧
      powerSymbol (.number 0) = some .max) ∧
    datarateSymbol .other = none ∧ powerSymbol (.number 1) = none := by decide

theorem test_witness_DatarateAnswersByPrecedence : Ready (good [0x28]) ∧ IoOk 2 (good [0x28]) := by decide

theorem test_witness_CrcLengthReadsBothRegisters : Ready (good [4, 0xC0]) ∧ IoOk 4 (good [4, 0xC0]) := by
  decide

theorem test_witness_SetCrcLengthRewritesConfig :
    Ready (good [0x73]) ∧ IoOk 3 (good [0x73]) ∧ Params.defaults.bEnCrc ≠ Params.defaults.bCrco := by decide

theorem test_witness_SetRetriesWritesThePackedByte : Ready (good []) ∧ IoOk 1 (good []) := by decide

theorem test_witness_SetAddressWidthWritesThenCaches :
    (Ready (good []) ∧ IoOk 1 (good []) ∧ 2 ≤ (2#3).toNat ∧ (5#3).toNat ≤ 5) ∧
    (Ready (failsAt 0 []) ∧ (failsAt 0 []).env.io (failsAt 0 []).env.ioCount = .fail 1 7) := by decide

theorem test_witness_AddressWidthAnswersTheCache : Ready (good []) := by decide

theorem test_witness_OpenReadingPipeFullAddress :
    Ready (good [0]) ∧ (1 : Pipe).val ≤ 1 ∧ 1 ≤ [1#8, 2, 3, 4, 5].length ∧ [1#8, 2, 3, 4, 5].length ≤ 5 ∧
    [1#8, 2, 3, 4, 5].length = (good [0]).dh.addressWidth ∧ IoOk 5 (good [0]) := by decide

theorem test_witness_OpenReadingPipeFirstByte :
    Ready (good [0]) ∧ 2 ≤ (2 : Pipe).val ∧ 2 ≤ (5 : Pipe).val ∧ [2#8, 3, 4, 5].length ≤ 4 ∧
    IoOk 5 (good [0]) := by decide

theorem test_witness_OpenReadingPipeFailureKeepsTheCache :
    Ready (failsAt 0 []) ∧ (0 : Pipe).val ≤ 1 ∧ [1#8, 2, 3, 4, 5].length ≤ 5 ∧
    [1#8, 2, 3, 4, 5].length = (failsAt 0 []).dh.addressWidth ∧
    (failsAt 0 []).env.io (failsAt 0 []).env.ioCount = .fail 1 7 := by decide

theorem test_witness_CloseReadingPipeClearsItsBit : Ready (good [0]) ∧ IoOk 3 (good [0]) := by decide

theorem test_witness_OpenWritingPipeMirrorsTheAddress :
    Ready (good []) ∧ 2 ≤ [1#8, 2, 3, 4, 5].length ∧ [1#8, 2, 3, 4, 5].length ≤ 5 ∧
    [1#8, 2, 3, 4, 5].length = (good []).dh.addressWidth ∧ IoOk 3 (good []) := by decide

theorem test_witness_WriteSendsAPayloadThatFits :
    (Ready (good [0x0E, 0]) ∧ IoOk 5 (good [0x0E, 0]) ∧ bitOf (answer 0 (good [0x0E, 0])) 0 = false ∧
      bitOf (answer 1 (good [0x0E, 0])) (good [0x0E, 0]).params.bEnDpl = false ∧
      (List.replicate 32 0#8).length ≤ (good [0x0E, 0]).dh.staticPayloadSize) ∧
    (bitOf (answer 1 (good [0x0E, 4])) (good [0x0E, 4]).params.bEnDpl = true ∧
      (List.replicate 32 0#8).length ≤ 32) := by decide

theorem test_witness_WriteRaisesOversizedPayload :
    (Ready (good [0x0E, 0]) ∧ IoOk 4 (good [0x0E, 0]) ∧ bitOf (answer 0 (good [0x0E, 0])) 0 = false ∧
      bitOf (answer 1 (good [0x0E, 0])) (good [0x0E, 0]).params.bEnDpl = false ∧
      (good [0x0E, 0]).dh.staticPayloadSize < (List.replicate 33 0#8).length) ∧
    (bitOf (answer 1 (good [0x0E, 4])) (good [0x0E, 4]).params.bEnDpl = true ∧
      32 < (List.replicate 33 0#8).length) := by decide

theorem test_witness_WriteReportsMaxRetransmits :
    Ready (good [0x11]) ∧ IoOk 3 (good [0x11]) ∧ bitOf (answer 0 (good [0x11])) 0 = true ∧
    bitOf (answer 0 (good [0x11])) 4 = true := by decide

theorem test_witness_WriteTimesOutOrKeepsPolling :
    (Ready (timed [0x0F] [7, 6]) ∧ IoOk 2 (timed [0x0F] [7, 6]) ∧ FullNoMaxRt (answer 0 (timed [0x0F] [7, 6])) ∧
      (some 5).getD (timed [0x0F] [7, 6]).params.timeoutDefault <
        (timed [0x0F] [7, 6]).env.tick ((timed [0x0F] [7, 6]).env.tickCount + 1)) ∧
    (timed [0x0F] [7, 5]).env.tick ((timed [0x0F] [7, 5]).env.tickCount + 1) ≤
      (some 5).getD (timed [0x0F] [7, 5]).params.timeoutDefault := by decide

theorem test_witness_PollingStepTestsInOrder :
    Ready (good [0x0E]) ∧
    (Polling polling.pendingByte (polling [0x0F] [5]) ∧ IoOk 2 (polling [0x0F] [5]) ∧
      FullNoMaxRt (answer 0 (polling [0x0F] [5])) ∧ nowAfter 1 (polling [0x0F] [5]) - 0 ≤ 5) ∧
    (FullNoMaxRt (answer 0 (polling [0x0F] [6])) ∧ 5 < nowAfter 1 (polling [0x0F] [6]) - 0) ∧
    (IoOk 3 (polling [0x1F] []) ∧ bitOf (answer 0 (polling [0x1F] [])) 0 = true ∧
      bitOf (answer 0 (polling [0x1F] [])) 4 = true) ∧
    (IoOk 5 (polling [0x1E, 0] []) ∧ bitOf (answer 0 (polling [0x1E, 0] [])) 0 = false ∧
      polling.pendingByte.payload.length ≤ sizeLimit (answer 1 (polling [0x1E, 0] [])) (polling [0x1E, 0] []) ∧
      polling.pendingByte.payload.length ≤ sizeLimit (answer 1 (polling [0x1E, 4] [])) (polling [0x1E, 4] [])) ∧
    (Polling polling.pendingByte (withSize 0 (polling [0x1E, 0] [])) ∧
      sizeLimit (answer 1 (withSize 0 (polling [0x1E, 0] []))) (withSize 0 (polling [0x1E, 0] [])) <
        polling.pendingByte.payload.length) := by decide

theorem test_witness_PollingStepTestsInOrder_failures :
    (∀ k, k < 5 → Polling polling.pendingByte (pollingFails k [0x0E, 0]) ∧ IoOk k (pollingFails k [0x0E, 0]) ∧
      (pollingFails k [0x0E, 0]).env.io ((pollingFails k [0x0E, 0]).env.ioCount + k) = .fail 1 7) ∧
    (bitOf (answer 0 (pollingFails 2 [0x1F])) 0 = true ∧ bitOf (answer 0 (pollingFails 2 [0x1F])) 4 = true) ∧
    bitOf (answer 0 (pollingFails 2 [0x0E, 0])) 0 = false ∧
    polling.pendingByte.payload.length ≤ sizeLimit (answer 1 (pollingFails 4 [0x0E, 0])) (pollingFails 4 [0x0E, 0]) := by
  decide

theorem test_witness_PollingEndsOnceTheClockPassesTheDeadline :
    Polling polling.pendingByte (polling [0x0F, 0x0F] [5, 1]) ∧ IoOk 4 (polling [0x0F, 0x0F] [5, 1]) ∧
    (∀ j, j ≤ 1 → FullNoMaxRt (answer j (polling [0x0F, 0x0F] [5, 1]))) ∧
    5 < nowAfter 2 (polling [0x0F, 0x0F] [5, 1]) - 0 := by decide

theorem test_witness_FailedWriteNeverTouchesTheEnableLine :
    leaves (exec (.write [0xAA] .ack none) (failsAt 0 [])) (fun t => t.response != some (.ok .okSymbol)) = true ∧
    ((pollingFails 4 [0x0E, 0]).running = some polling.pendingByte ∧
      leaves (step (pollingFails 4 [0x0E, 0])) (fun t => t.response != some (.ok .okSymbol)) = true) := by decide

theorem test_witness_ReadExtractsOnePayload :
    (Ready (good [0]) ∧ IoOk 5 (good [0]) ∧ bitOf (answer 0 (good [0])) (good [0]).params.bEnDpl = false ∧
      (good [0]).dh.staticPayloadSize ≠ 0) ∧
    (IoOk 7 (good [4, 255]) ∧ bitOf (answer 0 (good [4, 255])) (good [4, 255]).params.bEnDpl = true ∧
      answer 1 (good [4, 255]) ≠ 0#8) ∧
    (IoOk 6 (good [4, 0]) ∧ answer 1 (good [4, 0]) = 0#8) := by decide

theorem test_witness_AckPayloadAndReuseSendOneFrame :
    Ready (good []) ∧ IoOk 1 (good []) ∧ (List.replicate 32 0#8).length ≤ 32 ∧
    32 < (List.replicate 33 0#8).length := by decide

theorem test_witness_FlushesAreOneByte : Ready (good []) ∧ IoOk 1 (good []) := by decide

theorem test_witness_DataAvailableAnswersThePipe :
    (Ready (good [0x4A]) ∧ IoOk 2 (good [0x4A]) ∧ 5 = ((answer 0 (good [0x4A])).toNat / 2) % 8) ∧
    7 = ((answer 0 (good [0x0E])).toNat / 2) % 8 ∧ 6 = ((answer 0 (good [0x0C])).toNat / 2) % 8 := by decide

theorem test_witness_InterruptFlagsAnswerThreeBits : Ready (good [0x70]) ∧ IoOk 2 (good [0x70]) := by decide

theorem test_witness_FifoFlagsAnswerFourBits : Ready (good [0x33]) ∧ IoOk 2 (good [0x33]) := by decide

theorem test_witness_ClearInterruptFlagsWritesOnce : Ready (good []) ∧ IoOk 1 (good []) := by decide

theorem test_witness_ReceivedPowerAnswersNonzero : Ready (good [1]) ∧ IoOk 2 (good [1]) := by decide

theorem test_witness_ObserveTxAnswersTwoFields : Ready (good [0xFF]) ∧ IoOk 2 (good [0xFF]) := by decide

theorem test_witness_FeatureQueriesAnswerOneBit : Ready (good [6]) ∧ IoOk 2 (good [6]) := by decide

theorem test_witness_InitRunsTheConstructionSequence :
    (Idle (good [0]) ∧ 1 ≤ (good [0]).params.staticPayloadSizeReq ∧ IoOk 17 (good [0])) ∧
    ({ Params.defaults with staticPayloadSizeReq := 0 } : Params).staticPayloadSizeReq < 1 := by decide

theorem test_witness_InitInterruptedByAFailureKeepsWhatWasDone :
    (Idle (failsAt 1 []) ∧ 1 ≤ (failsAt 1 []).params.staticPayloadSizeReq ∧ IoOk 1 (failsAt 1 []) ∧
      (failsAt 1 []).env.io ((failsAt 1 []).env.ioCount + 1) = .fail 1 7) ∧
    (IoOk 2 (failsAt 2 []) ∧ (failsAt 2 []).env.io ((failsAt 2 []).env.ioCount + 2) = .fail 1 7) := by decide

theorem test_witness_StartListeningRunsItsSteps :
    (Ready (good [0x0E, 2]) ∧ listenCalls (good [0x0E, 2]) = 4 ∧
      bitOf (answer 1 (good [0x0E, 2])) (good [0x0E, 2]).params.bEnAckPay = true ∧ IoOk 7 (good [0x0E, 2])) ∧
    (Ready ((good [0x0E, 0]).setPipe0Address (some [1#8, 2])) ∧
      listenCalls ((good [0x0E, 0]).setPipe0Address (some [1#8, 2])) = 5 ∧
      bitOf (answer 1 (good [0x0E, 0])) (good [0x0E, 0]).params.bEnAckPay = false) ∧
    (∀ k, 4 ≤ k → k < 7 → Ready (failsAt k [0x0E, 2]) ∧ listenCalls (failsAt k [0x0E, 2]) = 4 ∧
      IoOk k (failsAt k [0x0E, 2]) ∧
      (failsAt k [0x0E, 2]).env.io ((failsAt k [0x0E, 2]).env.ioCount + k) = .fail 1 7) ∧
    bitOf (answer 1 (failsAt 6 [0x0E, 2])) (failsAt 6 [0x0E, 2]).params.bEnAckPay = true ∧
    listenCalls ((failsAt 5 [0x0E]).setPipe0Address (some [1#8, 2])) = 5 := by decide

theorem test_witness_StopListeningRunsItsSteps :
    Ready (good [2, 0x7F]) ∧ IoOk 7 (good [2, 0x7F]) ∧
    bitOf (answer 0 (good [2, 0x7F])) (good [2, 0x7F]).params.bEnAckPay = true ∧
    bitOf (answer 0 (good [0, 0x7F])) (good [0, 0x7F]).params.bEnAckPay = false := by decide

theorem test_witness_TeardownRerunsInit :
    Ready (good [0]) ∧ 1 ≤ (good [0]).params.staticPayloadSizeReq ∧ IoOk 18 (good [0]) ∧
    Instr.channel.space = .host ∧ Instr.channel ≠ .init ∧ Instr.channel.WellFormed := by decide

theorem test_witness_RaisedOperationsLeaveTheBlockIdle :
    (leaves (exec (.setAckPayload 0 (List.replicate 33 0)) (good []))
      (fun t => t.response.any Response.isRaised) = true ∧ (good []).csn = .released) ∧
    ((polling [0x0F] [6]).running = some polling.pendingByte ∧ (polling [0x0F] [6]).response = none ∧
      leaves (step (polling [0x0F] [6])) (fun t => t.response.any Response.isRaised) = true) := by decide

/-- R214, R218: where the enable line stands after a raise: dropped before it, raised before it, not yet. -/
theorem test_witness_RaisedOperationsLeaveTheBlockIdle_enable :
    leaves (exec .stopListening ((failsAt 3 [2]).raiseEnable))
      (fun t => t.response == some (.transportFailure 7) && t.ce == .low) = true ∧
    leaves (exec .teardown ((failsAt 0 []).raiseEnable))
      (fun t => t.response == some (.transportFailure 7) && t.ce == .low) = true ∧
    (IoOk (listenCalls (failsAt 4 [0x0E])) (failsAt 4 [0x0E]) ∧
      leaves (exec .startListening (failsAt 4 [0x0E]))
        (fun t => t.response == some (.transportFailure 7) && t.ce == .high) = true) ∧
    (¬ IoOk (listenCalls (failsAt 3 [0x0E])) (failsAt 3 [0x0E]) ∧
      leaves (exec .startListening (failsAt 3 [0x0E]))
        (fun t => t.response == some (.transportFailure 7) && t.ce == .low) = true) := by decide

theorem test_witness_DeviceHandleFieldsHaveTheirWriters :
    leaves (exec .init (withSize 1 ((good [0]).setAddressWidth 2)))
      (fun t => t.dh.staticPayloadSize != 1 && t.dh.addressWidth != 2) = true ∧
    leaves (exec (.openReadingPipe 0 [1, 2, 3, 4, 5]) (good [0]))
      (fun t => t.dh.pipe0ReadingAddress != none) = true ∧
    (polling [0x0F] [5]).running = some polling.pendingByte ∧
    answersNext (step (polling [0x0F] [5])) = true := by decide

theorem test_witness_EnableLineAndLifeHaveTheirWriters :
    leaves (exec .startListening (good [0, 0])) (fun t => t.ce != .low && t.life != .standby) = true := by
  decide

theorem test_witness_StepOnlyExtendsTheTrace :
    answersNext (step (asked .channel (good [0x4C]))) = true ∧
    answersNext (step (polling [0x0F] [5])) = true := by decide

/-- A block with a request on its port and one whose `write` polls both meet the invariant and step. -/
theorem test_witness_EveryStepKeepsTheInvariant :
    (asked .channel (good [0x4C])).Inv ∧ answersNext (step (asked .channel (good [0x4C]))) = true ∧
    (polling [0x0F] [5]).Inv ∧ answersNext (step (polling [0x0F] [5])) = true := by
  refine ⟨?_, by decide, ?_, by decide⟩
  · constructor <;> first | exact ⟨rfl, rfl⟩ | decide
  · constructor <;> first | exact ⟨rfl, rfl⟩ | decide

end Sys2Proof.Machine.Tests
end

section
/-! PROOF. The encoding family (30_encoding.md): the fields packed into RF_SETUP and SETUP_RETR, and the
operations that move register bytes in one frame. -/

namespace Sys2Proof.Machine

/-! ## Bits and fields of a byte -/

/-- A field holds exactly the bits from `lo` to `hi` (R8). -/
theorem testBit_fieldOf (v : Byte) (f : BitField) (i : Nat) :
    (fieldOf v f).testBit i = (v.getLsbD (f.lo.val + i) && decide (i < f.hi.val - f.lo.val + 1)) := by
  rw [fieldOf, Nat.testBit_and, Nat.testBit_shiftRight, Nat.testBit_two_pow_sub_one,
    BitVec.testBit_toNat]

/-- A field whose bits are those of a code of its width reads as the code. -/
theorem fieldOf_eq_toNat {w : Nat} {v : Byte} {f : BitField} (c : BitVec w)
    (hw : f.hi.val - f.lo.val + 1 = w)
    (hbits : ∀ i < w, v.getLsbD (f.lo.val + i) = c.getLsbD i) : fieldOf v f = c.toNat := by
  apply Nat.eq_of_testBit_eq
  intro i
  rw [testBit_fieldOf, hw, BitVec.testBit_toNat]
  by_cases hi : i < w
  · simp [hi, hbits i hi]
  · simp [hi, BitVec.getLsbD_of_ge c i (by omega)]

/-! ## RF_SETUP (R67) -/

theorem bitOf_drBits (d : Datarate) (k : BitNo) :
    bitOf (drBits d) k = (decide (d = .rate250kbps ∧ k = 5) || decide (d = .rate2mbps ∧ k = 3)) := by
  cases d <;> revert k <;> decide

/-- Each bit of an RF_SETUP value is a datarate bit or a bit of the power code, which starts at bit 1. -/
theorem bitOf_rfSetupValue (P : Params) (d : Datarate) (p : PowerLevel) (k : BitNo) :
    bitOf (rfSetupValue P d p) k =
      (bitOf (drBits d) k || (decide (1 ≤ k.val) && (powerCode P p).getLsbD (k.val - 1))) := by
  have hk := k.isLt
  simp [bitOf, rfSetupValue, hk, Nat.one_le_iff_ne_zero]

theorem rfSetupValue_bit5 (P : Params) (d : Datarate) (p : PowerLevel) :
    bitOf (rfSetupValue P d p) 5 = decide (d = .rate250kbps) := by
  simp [bitOf_rfSetupValue, bitOf_drBits]

theorem rfSetupValue_bit3 (P : Params) (d : Datarate) (p : PowerLevel) :
    bitOf (rfSetupValue P d p) 3 = decide (d = .rate2mbps) := by
  simp [bitOf_rfSetupValue, bitOf_drBits]

/-- The bits that hold neither a datarate nor a power code are zero (D15). -/
theorem rfSetupValue_zeroBit (P : Params) (d : Datarate) (p : PowerLevel) {k : BitNo}
    (hk : k = 7 ∨ k = 6 ∨ k = 4 ∨ k = 0) : bitOf (rfSetupValue P d p) k = false := by
  obtain rfl | rfl | rfl | rfl := hk <;> simp [bitOf_rfSetupValue, bitOf_drBits]

theorem datarateOf_rfSetupValue (P : Params) (d : Datarate) (p : PowerLevel) :
    datarateOf (rfSetupValue P d p) = d := by
  unfold datarateOf
  rw [rfSetupValue_bit5, rfSetupValue_bit3]
  cases d <;> rfl

theorem fieldOf_rfSetupValue_power (P : Params) (d : Datarate) (p : PowerLevel) :
    fieldOf (rfSetupValue P d p) ⟨2, 1⟩ = (powerCode P p).toNat := by
  apply fieldOf_eq_toNat (powerCode P p) rfl
  intro i hi
  have hbit := bitOf_rfSetupValue P d p ⟨1 + i, by omega⟩
  have hdr : bitOf (drBits d) ⟨1 + i, by omega⟩ = false := by
    rw [bitOf_drBits]
    simp [Fin.ext_iff]
    omega
  rw [hdr] at hbit
  simpa [bitOf] using hbit

/-! ## SETUP_RETR (R68) -/

theorem fieldOf_setupRetrValue_delay (delay count : BitVec 4) :
    fieldOf (setupRetrValue delay count) ⟨7, 4⟩ = delay.toNat := by
  apply fieldOf_eq_toNat delay rfl
  intro i hi
  have h4 : 4 + i < 8 := by omega
  simp [setupRetrValue, h4]

theorem fieldOf_setupRetrValue_count (delay count : BitVec 4) :
    fieldOf (setupRetrValue delay count) ⟨3, 0⟩ = count.toNat := by
  apply fieldOf_eq_toNat count rfl
  intro i hi
  have h8 : i < 8 := by omega
  simp [setupRetrValue, hi, h8]

/-- Settles O10: each packed bit is read off its lemma, and the table of R67 is computed. -/
theorem packedFieldsAreRecovered : Obligations.PackedFieldsAreRecovered := by
  refine ⟨fun P d p => ⟨datarateOf_rfSetupValue P d p, rfSetupValue_bit5 P d p,
    rfSetupValue_bit3 P d p, ?_, rfSetupValue_zeroBit P d p (by decide),
    rfSetupValue_zeroBit P d p (by decide), rfSetupValue_zeroBit P d p (by decide),
    rfSetupValue_zeroBit P d p (by decide)⟩,
    fun delay count => ⟨fieldOf_setupRetrValue_delay delay count,
      fieldOf_setupRetrValue_count delay count⟩, by decide⟩
  rw [fieldOf_rfSetupValue_power]
  cases p <;> rfl

/-! ## Operations of one frame -/

@[simp] theorem Ended.returning_done {α : Type} (v : α → Value) (a : α) (s : State) :
    (Ended.done a s).returning v = .done (.ok (v a)) s := rfl

@[simp] theorem Ended.returningNothing_done {α : Type} (a : α) (s : State) :
    (Ended.done a s).returningNothing = .done (.ok .nothing) s := rfl

@[simp] theorem Ended.returningNothing_raised {α : Type} (e : Error) (s : State) :
    (Ended.raised e s : Ended α).returningNothing = .raised e s := rfl

/-- A host operation whose body is one frame and a response changes nothing else. -/
theorem hostOp_framed {i : Instr} {s : State} {body : State → Ended Response} {m n : Nat}
    {es : List Event} {r : Response} (hs : Ready s) (hw : i.WellFormed)
    (hbody : body s.begin = .done r (s.begin.framed m n es)) :
    hostOp i body s = .next (s.after m n es r) := by
  rw [hostOp_ready hs hw, hbody, finish_done, respond_framed_begin hs.1]

theorem rxBytes_eq_answers (s : State) (n : Nat) : s.env.rxBytes n = answers 0 n s := by
  simp [Env.rxBytes, answers, answer]

theorem readRegister_wellFormed (r : RegOperand) {n : BitVec 3} (h1 : 1 ≤ n.toNat) (h5 : n.toNat ≤ 5) :
    (Instr.readRegister r n).WellFormed := by
  simp [Instr.WellFormed, Instr.illFormed?, okRegLen, h1, h5]

theorem writeRegister_byte_wellFormed (r : RegOperand) (b : Byte) :
    (Instr.writeRegister r (.byte b)).WellFormed := rfl

theorem writeRegister_bytes_wellFormed (r : RegOperand) {bs : List Byte} (h1 : 1 ≤ bs.length)
    (h5 : bs.length ≤ 5) : (Instr.writeRegister r (.bytes bs)).WellFormed := by
  simp [Instr.WellFormed, Instr.illFormed?, okRegLen, h1, h5]

theorem setAddressWidth_wellFormed {n : BitVec 3} (h2 : 2 ≤ n.toNat) (h5 : n.toNat ≤ 5) :
    (Instr.setAddressWidth n).WellFormed := by
  simp [Instr.WellFormed, Instr.illFormed?, h2, h5]

theorem exec_readRegister_ok {s : State} (r : RegOperand) {n : BitVec 3} (hs : Ready s)
    (h1 : 1 ≤ n.toNat) (h5 : n.toNat ≤ 5) (hio : IoOk 2 s) :
    exec (.readRegister r n) s = .next (s.after 2 n.toNat
      (readFrame (registerNumber s.params r) (answers 0 n.toNat s))
      (.ok (.bytes (answers 0 n.toNat s)))) := by
  show execReadRegister r n s = _
  refine hostOp_framed hs (readRegister_wellFormed r h1 h5) ?_
  have hread := readReg_ok (s := s.begin) (registerNumber s.params r) (n := n.toNat) (by omega)
    (hio 0 (by omega)) (hio 1 (by omega))
  simp [hread, rxBytes_eq_answers]

theorem exec_writeRegister_ok {s : State} (r : RegOperand) {v : RegValue} (hs : Ready s)
    (hw : (Instr.writeRegister r v).WellFormed) (hio : IoOk 1 s) :
    exec (.writeRegister r v) s = .next (s.after 1 0
      (writeFrame (registerNumber s.params r) (regData v)) (.ok .nothing)) := by
  show execWriteRegister r v s = _
  refine hostOp_framed hs hw ?_
  have hwrite := writeReg_ok (s := s.begin) (registerNumber s.params r) (regData v) (ioOk_zero hio)
  simp [hwrite]

/-- Settles O15: one successful register read, for an identifier and for an address. -/
theorem readRegisterReadsItsBytes : Obligations.ReadRegisterReadsItsBytes := by
  intro s r n hs h1 h5 hio
  rw [exec_readRegister_ok r hs h1 h5 hio]
  cases r <;> rfl

/-- Settles O16: one successful register write, for each form of operand and of value. -/
theorem writeRegisterWritesItsBytes : Obligations.WriteRegisterWritesItsBytes := by
  intro s r v hs hio hv
  have hw : (Instr.writeRegister r v).WellFormed := by
    cases v with
    | byte b => exact writeRegister_byte_wellFormed r b
    | bytes bs => exact writeRegister_bytes_wellFormed r hv.1 hv.2
  rw [exec_writeRegister_ok r hs hw hio]
  cases r <;> cases v <;> rfl

/-- Settles O25: the body is one successful write of the packed byte. -/
theorem setRetriesWritesThePackedByte : Obligations.SetRetriesWritesThePackedByte := by
  intro s delay count hs hio
  show execSetRetries delay count s = _
  refine hostOp_framed hs rfl ?_
  have hwrite := writeNamed_ok (s := s.begin) .setupRetr [setupRetrValue delay count] (ioOk_zero hio)
  rw [hwrite, Ended.returningNothing_done]
  rfl

/-! ## `set_address_width` (R69, R127) -/

theorem writeAddressWidth_ok {s : State} (n : Nat) (h : s.env.io s.env.ioCount = .ok) :
    writeAddressWidth n s = .done () ((s.framed 1 0
      (writeFrame s.params.aSetupAw [BitVec.ofNat 8 (setupAwCode n)])).setAddressWidth
        (setupAwCode n + 2)) := by
  simp [writeAddressWidth, writeNamed_ok _ _ h, addressOf]

/-- A failed SETUP_AW write raises before the width is cached. -/
theorem writeAddressWidth_fails {s : State} {sent report : Nat} (n : Nat)
    (h : s.env.io s.env.ioCount = .fail sent report) :
    ∃ es, writeAddressWidth n s = .raised (.transportFailure report) (s.framed 1 0 es) := by
  exact ⟨_, by rw [writeAddressWidth, writeNamed_fails _ _ h, Ended.andThen_raised]⟩

theorem exec_setAddressWidth_eq {s : State} {n : BitVec 3} (hs : Ready s) (h2 : 2 ≤ n.toNat)
    (h5 : n.toNat ≤ 5) :
    exec (.setAddressWidth n) s =
      .next (finish (writeAddressWidth n.toNat s.begin).returningNothing) := by
  show execSetAddressWidth n s = _
  exact hostOp_ready hs (setAddressWidth_wellFormed h2 h5) _

/-- Caching the width commutes with answering. -/
theorem respond_setAddressWidth (n : Nat) (r : Response) (s : State) :
    (s.setAddressWidth n).respond r = (s.respond r).setAddressWidth n := rfl

/-- Settles O26: the write either succeeds, and the width is cached after it, or raises before the cache. -/
theorem setAddressWidthWritesThenCaches : Obligations.SetAddressWidthWritesThenCaches := by
  intro s n hs h2 h5
  rw [exec_setAddressWidth_eq hs h2 h5]
  constructor
  · intro hio
    have hcode := setupAwCode_of_range h2 h5
    have hwidth : n.toNat - 2 + 2 = n.toNat := by omega
    rw [writeAddressWidth_ok (s := s.begin) _ (ioOk_zero hio), hcode, hwidth,
      Ended.returningNothing_done, finish_done, respond_setAddressWidth, respond_framed_begin hs.1]
    rfl
  · intro sent report hfail
    obtain ⟨es, hraised⟩ := writeAddressWidth_fails (s := s.begin) n.toNat hfail
    exact ⟨_, rfl, by simp [hraised], by simp [hraised, Error.response]⟩

end Sys2Proof.Machine
end

section
/-! PROOF. The transaction engine family (40_transaction_engine.md): `send_command`, with and without a
response (R96). -/

namespace Sys2Proof.Machine

/-! ## `send_command` (R96) -/

/-- R75 leaves no ill-formed operand to `send_command`: any byte is a response length. -/
theorem sendCommand_wellFormed (cmd : CmdOperand) (n : Byte) : (Instr.sendCommand cmd n).WellFormed := rfl

theorem exec_sendCommand_noResponse_ok {s : State} (cmd : CmdOperand) (hs : Ready s) (hio : IoOk 1 s) :
    exec (.sendCommand cmd 0#8) s =
      .next (s.after 1 0 (busFrame [commandNumber s.params cmd] []) (.ok .nothing)) := by
  show execSendCommand cmd 0#8 s = _
  refine hostOp_framed hs (sendCommand_wellFormed cmd 0#8) ?_
  have hcmd := command_zero_ok (s := s.begin) (commandNumber s.params cmd) (ioOk_zero hio)
  simp [hcmd]

theorem exec_sendCommand_response_ok {s : State} (cmd : CmdOperand) {n : Byte} (hs : Ready s)
    (hn : n ≠ 0#8) (hio : IoOk 2 s) :
    exec (.sendCommand cmd n) s = .next (s.after 2 n.toNat
      (busFrame [commandNumber s.params cmd] (answers 0 n.toNat s))
      (.ok (.bytes (answers 0 n.toNat s)))) := by
  show execSendCommand cmd n s = _
  refine hostOp_framed hs (sendCommand_wellFormed cmd n) ?_
  have hlen : n.toNat ≠ 0 := by simpa [BitVec.toNat_eq] using hn
  have hcmd := command_read_ok (s := s.begin) (commandNumber s.params cmd) hlen
    (hio 0 (by omega)) (hio 1 (by omega))
  simp [hcmd, hlen, rxBytes_eq_answers]

/-- Settles O17: the byte is the operand's command number, and the frame reads only where a response is
asked for. -/
theorem sendCommandEmitsTheOpcode : Obligations.SendCommandEmitsTheOpcode := by
  intro s cmd c n hs hc
  have hnumber : c = commandNumber s.params cmd := by cases cmd <;> exact hc
  subst hnumber
  exact ⟨exec_sendCommand_noResponse_ok cmd hs, exec_sendCommand_response_ok cmd hs⟩

end Sys2Proof.Machine
end

section
/-! PROOF. The configuration family (41_configuration.md): `channel`, `status` and `datarate`, which read one
register, and `rf_setup`, which writes one or rejects. -/

namespace Sys2Proof.Machine

/-! ## Operations that read one register (R121, R123, R170) -/

/-- A host operation that answers a value of one named register is one read frame and changes nothing else. -/
theorem hostOp_readByte_ok {i : Instr} {s : State} (id : RegisterId) (v : Byte → Value) (hs : Ready s)
    (hw : i.WellFormed) (hio : IoOk 2 s) :
    hostOp i (fun u => (readByte id u).returning v) s =
      .next (s.after 2 1 (readFrame (addressOf s.params id) [answer 0 s]) (.ok (v (answer 0 s)))) := by
  refine hostOp_framed hs hw ?_
  have hread := readByte_ok (s := s.begin) id (hio 0 (by omega)) (hio 1 (by omega))
  rw [hread, Ended.returning_done]
  rfl

/-- Settles O20: both are one read of their register, answered by `.byte` with no mask. -/
theorem channelAndStatusAnswerTheByteRead : Obligations.ChannelAndStatusAnswerTheByteRead := by
  intro s hs hio
  exact ⟨hostOp_readByte_ok (i := .channel) .rfCh .byte hs rfl hio,
    hostOp_readByte_ok (i := .status) .status .byte hs rfl hio⟩

/-- Settles O22: one read of RF_SETUP, answered by `datarateOf`, which tests bit 5 before bit 3. -/
theorem datarateAnswersByPrecedence : Obligations.DatarateAnswersByPrecedence := by
  intro s hs hio
  exact hostOp_readByte_ok (i := .datarate) .rfSetup (fun v => .datarate (datarateOf v)) hs rfl hio

/-! ## `rf_setup` (R67, R122) -/

/-- The four numbers of R122 are the only ones that name a level. -/
theorem powerSymbol_number_eq_none {z : Int} (hmin : z ≠ -18) (hlow : z ≠ -12) (hhigh : z ≠ -6)
    (hmax : z ≠ 0) : powerSymbol (.number z) = none := by
  simp [powerSymbol, hmin, hlow, hhigh, hmax]

/-- R75 leaves no ill-formed operand to `rf_setup`: what it does not recognise it rejects (R122). -/
theorem rfSetup_wellFormed (d : DatarateArg) (p : PowerArg) : (Instr.rfSetup d p).WellFormed := rfl

theorem exec_rfSetup_recognised {s : State} {d : DatarateArg} {p : PowerArg} {dr : Datarate}
    {pw : PowerLevel} (hs : Ready s) (hd : datarateSymbol d = some dr) (hp : powerSymbol p = some pw)
    (hio : IoOk 1 s) :
    exec (.rfSetup d p) s = .next (s.after 1 0
      (writeFrame s.params.aRfSetup [rfSetupValue s.params dr pw])
      (.ok (.byte (rfSetupValue s.params dr pw)))) := by
  show execRfSetup d p s = _
  refine hostOp_framed hs (rfSetup_wellFormed d p) ?_
  have hwrite := writeNamed_ok (s := s.begin) .rfSetup [rfSetupValue s.params dr pw] (ioOk_zero hio)
  simp only [hd, hp, State.begin_params, hwrite, Ended.returning_done]
  rfl

/-- A rejection is no frame at all, and does not depend on the transport (R215). -/
theorem exec_rfSetup_rejected {s : State} {d : DatarateArg} {p : PowerArg} (hs : Ready s)
    (h : datarateSymbol d = none ∨ powerSymbol p = none) :
    exec (.rfSetup d p) s = .next (s.after 0 0 [] .configRejected) := by
  show execRfSetup d p s = _
  rw [execRfSetup, hostOp_ready hs (rfSetup_wellFormed d p)]
  have hanswer := respond_begin hs.1 .configRejected
  obtain hd | hp := h
  · simp [hd, hanswer]
  · simp [hp, hanswer]

/-- Settles O21: recognised symbols are one write of the packed byte, which R67 spells out; any other pair is
rejected; the table of symbols is computed. -/
theorem rfSetupWritesOrRejects : Obligations.RfSetupWritesOrRejects := by
  intro s hs
  refine ⟨?_, fun d p => exec_rfSetup_rejected hs, fun _ => rfl, rfl, fun _ => rfl, rfl, rfl, rfl, rfl, rfl,
    fun z => powerSymbol_number_eq_none⟩
  intro d p dr pw bits code hd hp hio hbits hcode
  have hdr : bits = drBits dr := by rw [hbits]; cases dr <;> rfl
  have hpw : code = powerCode s.params pw := by rw [hcode]; cases pw <;> rfl
  rw [hdr, hpw]
  exact exec_rfSetup_recognised hs hd hp hio

end Sys2Proof.Machine
end

section
/-! PROOF. The payload family (43_payload_io.md): the two flushes, which send one named command. -/

namespace Sys2Proof.Machine

/-- A host operation that sends one named command and answers nothing is the one-byte frame of its op-code. -/
theorem hostOp_sendNamed_ok {i : Instr} {s : State} (c : CommandId) (hs : Ready s) (hw : i.WellFormed)
    (hio : IoOk 1 s) :
    hostOp i (fun u => (sendNamed c u).returningNothing) s =
      .next (s.after 1 0 (busFrame [opcodeOf s.params c] []) (.ok .nothing)) := by
  refine hostOp_framed hs hw ?_
  have hsend := sendNamed_ok (s := s.begin) c (ioOk_zero hio)
  rw [hsend, Ended.returningNothing_done, State.begin_params]

/-- Settles O42: each flush sends one named command, whose op-code is 0xE1 or 0xE2 under every parameter
record. -/
theorem flushesAreOneByte : Obligations.FlushesAreOneByte := by
  intro s hs hio
  exact ⟨hostOp_sendNamed_ok (i := .flushTx) .flushTx hs rfl hio,
    hostOp_sendNamed_ok (i := .flushRx) .flushRx hs rfl hio⟩

end Sys2Proof.Machine
end

section
/-! PROOF. The status and diagnostics family (44_status_diagnostics.md): `interrupt_flags`, which reads STATUS
once, and `clear_interrupt_flags`, which writes it once. -/

namespace Sys2Proof.Machine

/-- The demultiplexer of R172, by the bit positions of R20. -/
theorem interruptFlagsOf_eq (v : Byte) :
    interruptFlagsOf v = ⟨v.getLsbD 6, v.getLsbD 5, v.getLsbD 4⟩ := rfl

/-- Clearing the three flags is one write frame, in every operation that does so (R174). -/
theorem clearInterrupts_ok {s : State} (h : s.env.io s.env.ioCount = .ok) :
    clearInterrupts s = .done () (s.framed 1 0 (writeFrame s.params.aStatus [0x70#8])) := by
  rw [clearInterrupts, writeNamed_ok .status _ h, clearAllFlags_eq]
  rfl

/-- Settles O44: one read of STATUS, answered by the demultiplexer `interruptFlagsOf`. -/
theorem interruptFlagsAnswerThreeBits : Obligations.InterruptFlagsAnswerThreeBits := by
  intro s hs hio
  rw [← interruptFlagsOf_eq]
  exact hostOp_readByte_ok (i := .interruptFlags) .status (fun v => .interrupts (interruptFlagsOf v))
    hs rfl hio

/-- Settles O46: the body is `clearInterrupts`, one successful write of 0x70. -/
theorem clearInterruptFlagsWritesOnce : Obligations.ClearInterruptFlagsWritesOnce := by
  intro s hs hio
  show execClearInterruptFlags s = _
  refine hostOp_framed hs rfl ?_
  have hclear := clearInterrupts_ok (s := s.begin) (ioOk_zero hio)
  rw [hclear, Ended.returningNothing_done]
  rfl

end Sys2Proof.Machine
end

section
/-! PROOF. The exceptions family (60_exceptions.md): what is left where an operation is raised out of (R214,
R218, R219), and at which of its calls `start_listening` was. -/

namespace Sys2Proof.Machine

/-! ## What a raise leaves -/

/-- The response on the port has a raised kind (R210, R216). -/
def State.Raised (t : State) : Prop := t.response.any Response.isRaised = true

/-- `t` is what a raise out of an operation of `s` leaves, with the enable line at `c` (R218, R219). -/
structure RaisedFrom (c : Ce) (s t : State) : Prop where
  life : t.life = s.life
  txFsm : t.txFsm = .idle
  running : t.running = none
  port : t.port = s.port
  csn : s.csn = .released → t.csn = .released
  ce : t.ce = c

theorem not_raised_ok (v : Value) (u : State) : ¬ (u.respond (.ok v)).Raised := by
  simp [State.Raised, Response.isRaised]

theorem not_raised_of_unanswered {t : State} (h : t.response = none) : ¬ t.Raised := by
  simp [State.Raised, h]

/-- Bus activity that ends with a response moves neither the lifecycle nor the enable line. -/
theorem BusOnly.raisedFrom {s u : State} (h : BusOnly s u) (r : Response) :
    RaisedFrom s.ce s (u.respond r) :=
  ⟨h.life, rfl, rfl, h.port, h.csn, h.ce⟩

/-- A raise is seen alike from every state with the same lifecycle, port and chip-select. -/
theorem RaisedFrom.of_source {c : Ce} {s v t : State} (h : RaisedFrom c v t) (hlife : v.life = s.life)
    (hport : v.port = s.port) (hcsn : s.csn = .released → v.csn = .released) : RaisedFrom c s t :=
  ⟨h.life.trans hlife, h.txFsm, h.running, h.port.trans hport, fun hs => h.csn (hcsn hs), h.ce⟩

/-! ## How many calls a piece makes -/

/-- A piece of `m` transport calls is done exactly where they all succeed (R214). -/
def UsesCalls {α : Type} (m : Nat) (s : State) : Ended α → Prop
  | .done _ t => IoOk m s ∧ ∃ n, t.env = s.env.took m n
  | .raised _ _ => ¬ IoOk m s

theorem not_ioOk_of_fail {m k : Nat} {s : State} {sent report : Nat} (hk : k < m)
    (h : s.env.io (s.env.ioCount + k) = .fail sent report) : ¬ IoOk m s := by
  intro hio
  simp [hio k hk] at h

/-- The next `m + k` calls are the next `m`, and the next `k` of a state that has made `m`. -/
theorem ioOk_add {m k n : Nat} {s t : State} (h : t.env = s.env.took m n) :
    IoOk (m + k) s ↔ IoOk m s ∧ IoOk k t := by
  simp only [IoOk, h, Env.took_io, Env.took_ioCount, Nat.add_assoc]
  constructor
  · intro hio
    exact ⟨fun j hj => hio j (by omega), fun j hj => hio (m + j) (by omega)⟩
  · rintro ⟨hm, hk⟩ j hj
    by_cases hjm : j < m
    · exact hm j hjm
    · have hlast := hk (j - m) (by omega)
      rwa [Nat.add_sub_cancel' (by omega)] at hlast

theorem UsesCalls.andThen {α β : Type} {m k : Nat} {s : State} {r : Ended α} {f : α → State → Ended β}
    (h : UsesCalls m s r) (h' : ∀ a t, r = .done a t → UsesCalls k t (f a t)) :
    UsesCalls (m + k) s (r.andThen f) := by
  cases r with
  | raised e t => exact fun hio => h fun j hj => hio j (by omega)
  | done a t =>
    obtain ⟨hm, n, ht⟩ := h
    have hf := h' a t rfl
    rw [Ended.andThen_done]
    cases hfa : f a t with
    | raised e u =>
      rw [hfa] at hf
      exact fun hio => hf ((ioOk_add ht).mp hio).2
    | done b u =>
      rw [hfa] at hf
      obtain ⟨hk, n', hu⟩ := hf
      exact ⟨(ioOk_add ht).mpr ⟨hm, hk⟩, n + n', by rw [hu, ht, Env.took_took]⟩

theorem writeNamed_usesCalls (id : RegisterId) (data : List Byte) (s : State) :
    UsesCalls 1 s (writeNamed id data s) := by
  cases h : s.env.io s.env.ioCount with
  | ok =>
    rw [writeNamed_ok id data h]
    exact ⟨fun k hk => by rwa [Nat.lt_one_iff.mp hk], 0, rfl⟩
  | fail sent report =>
    rw [writeNamed_fails id data h]
    exact not_ioOk_of_fail Nat.one_pos h

theorem readByte_usesCalls (id : RegisterId) (s : State) : UsesCalls 2 s (readByte id s) := by
  cases h0 : s.env.io s.env.ioCount with
  | fail sent report =>
    rw [readByte_write_fails id h0]
    exact not_ioOk_of_fail Nat.two_pos h0
  | ok =>
    cases h1 : s.env.io (s.env.ioCount + 1) with
    | fail sent report =>
      rw [readByte_fails id h0 h1]
      exact not_ioOk_of_fail Nat.one_lt_two h1
    | ok =>
      rw [readByte_ok id h0 h1]
      refine ⟨fun k hk => ?_, 1, rfl⟩
      obtain rfl | rfl : k = 0 ∨ k = 1 := by omega
      · exact h0
      · exact h1

theorem setBits_usesCalls (id : RegisterId) (mask : Byte) (s : State) :
    UsesCalls 3 s (setBits id mask s) :=
  (readByte_usesCalls id s).andThen fun _ t _ => writeNamed_usesCalls id _ t

theorem restorePipe0_usesCalls (s : State) :
    UsesCalls (if s.dh.pipe0ReadingAddress.isSome then 1 else 0) s (restorePipe0 s) := by
  unfold restorePipe0
  cases s.dh.pipe0ReadingAddress with
  | none => exact ⟨fun k hk => absurd hk (Nat.not_lt_zero k), 0, rfl⟩
  | some a => exact writeNamed_usesCalls _ a s

/-! ## `start_listening` (R194) -/

theorem Ended.andThen_assoc {α β γ : Type} (r : Ended α) (f : α → State → Ended β)
    (g : β → State → Ended γ) :
    (r.andThen f).andThen g = r.andThen fun a t => (f a t).andThen g := by
  cases r <;> rfl

/-- Steps 1 to 3 of `start_listening`, all that comes before CE_HIGH (R194). -/
def listenSetup (s : State) : Ended Unit :=
  (setBits .config (bitMask s.params.bPrimRx) s).andThen fun _ t =>
    (clearInterrupts t).andThen fun _ u => restorePipe0 u

/-- `start_listening` is its setup, CE_HIGH, and the flush of step 5. -/
theorem exec_startListening_eq_setup {s t : State} (h : exec .startListening s = .next t) :
    t = finish (((listenSetup s.begin).andThen fun _ v =>
      flushTxIfAckPayloads v.raiseEnable).thenLife .listening) := by
  replace h : execStartListening s = .next t := h
  unfold execStartListening at h
  obtain ⟨-, ht⟩ := accept_next h
  simpa only [listenSetup, Ended.andThen_assoc] using ht

theorem listenSetup_busOnly (s : State) : BusOnly s (listenSetup s).state :=
  (setBits_busOnly _ _ s).andThen fun _ t _ =>
    (clearInterrupts_busOnly t).andThen fun _ u _ => restorePipe0_busOnly u

theorem listenSetup_usesCalls (s : State) : UsesCalls (listenCalls s) s (listenSetup s) := by
  have hset := setBits_busOnly .config (bitMask s.params.bPrimRx) s
  have hcalls : listenCalls s = 3 + (1 + if s.dh.pipe0ReadingAddress.isSome then 1 else 0) := by
    simp only [listenCalls]
    omega
  rw [hcalls]
  refine (setBits_usesCalls _ _ s).andThen fun a t ht => ?_
  rw [ht] at hset
  refine (writeNamed_usesCalls .status _ t).andThen fun b u hu => ?_
  have hclear := clearInterrupts_busOnly t
  rw [clearInterrupts, hu] at hclear
  have hdh : u.dh = s.dh := hclear.dh.trans hset.dh
  rw [← hdh]
  exact restorePipe0_usesCalls u

/-! ## Each operation that can be raised out of -/

/-- The level of the enable line where an instruction is raised out of (R218): dropped first by
`stop_listening` and `teardown`, raised by step 4 of `start_listening` if it got there. -/
def enableAtRaise (s : State) : Instr → Ce
  | .stopListening | .teardown => .low
  | .startListening => if IoOk (listenCalls s) s then .high else s.ce
  | _ => s.ce

theorem exec_startListening_raised {s t : State} (h : exec .startListening s = .next t) (hr : t.Raised) :
    RaisedFrom (enableAtRaise s .startListening) s t := by
  have ht := exec_startListening_eq_setup h
  have hbus := listenSetup_busOnly s.begin
  have hcalls := listenSetup_usesCalls s.begin
  cases hsetup : listenSetup s.begin with
  | raised e u =>
    rw [hsetup] at ht hbus hcalls
    have hlevel : enableAtRaise s .startListening = s.ce := if_neg hcalls
    rw [hlevel, ht]
    exact (hbus.raisedFrom e.response).of_source rfl rfl id
  | done a v =>
    rw [hsetup] at ht hbus hcalls
    have hlevel : enableAtRaise s .startListening = .high := if_pos hcalls.1
    obtain ⟨u, hu, hf | ⟨e, hf⟩⟩ :=
      thenLife_cases (l := .listening) (flushTxIfAckPayloads_busOnly v.raiseEnable)
    · rw [ht, Ended.andThen_done, hf] at hr
      exact absurd hr (not_raised_ok _ _)
    · rw [hlevel, ht, Ended.andThen_done, hf]
      exact (hu.raisedFrom e.response).of_source hbus.life hbus.port hbus.csn

/-- One iteration of a `write` that has answered nothing is raised out of before its pulse, if at all. -/
theorem pollOnce_raised {w : PendingWrite} {s : State} (hs : s.response = none)
    (hr : (pollOnce w s).Raised) : RaisedFrom s.ce s (pollOnce w s) := by
  obtain ⟨u, hu, ⟨r, -, ht⟩ | ⟨v, hv, ht | ⟨e, ht⟩⟩ | ⟨-, ht⟩ | ht⟩ := pollOnce_cases w s <;>
    rw [ht] at hr ⊢
  · exact hu.raisedFrom r
  · exact absurd hr (not_raised_ok _ _)
  · rw [← hu.ce]
    exact (hv.raisedFrom e.response).of_source hu.life hu.port hu.csn
  · exact ⟨hu.life, rfl, rfl, hu.port, hu.csn, hu.ce⟩
  · exact absurd hr (not_raised_of_unanswered (hu.response.trans hs))

theorem step_running_raised {w : PendingWrite} {s t : State} (hw : s.running = some w)
    (hs : s.response = none) (h : step s = .next t) (hr : t.Raised) : RaisedFrom s.ce s t := by
  obtain ⟨w', -, rfl⟩ | ⟨hn, -⟩ | ⟨_, _, _, hn, -⟩ := step_cases h
  · exact pollOnce_raised hs hr
  · simp [hw] at hn
  · simp [hw] at hn

/-- Whatever instruction is raised out of, R218 and R219 hold of what it leaves. -/
theorem exec_raised {i : Instr} {s t : State} (h : exec i s = .next t) (hr : t.Raised) :
    RaisedFrom (enableAtRaise s i) s t := by
  cases i with
  | setAddressWidth n =>
    obtain ⟨-, -, -, -, u, hu, rfl | ⟨e, rfl⟩⟩ := exec_setAddressWidth h
    · exact absurd hr (not_raised_ok _ _)
    · exact (hu.raisedFrom e.response).of_source rfl rfl id
  | openReadingPipe p a =>
    obtain ⟨-, -, -, u, r, rfl, hu | ⟨-, hu⟩⟩ := exec_openReadingPipe h
    · exact (hu.raisedFrom r).of_source rfl rfl id
    · exact (hu.raisedFrom r).of_source rfl rfl id
  | write payload mode timeout =>
    obtain ⟨-, -, rfl⟩ := exec_write h
    exact (pollOnce_raised rfl hr).of_source rfl rfl id
  | init =>
    obtain ⟨-, -, u, ⟨-, rfl⟩ | ⟨hu | hu, e, rfl⟩⟩ := exec_init h
    · exact absurd hr (not_raised_ok _ _)
    · exact (hu.raisedFrom e.response).of_source rfl rfl id
    · exact (hu.raisedFrom e.response).of_source rfl rfl id
  | startListening => exact exec_startListening_raised h hr
  | stopListening =>
    obtain ⟨-, -, u, hu, rfl | ⟨e, rfl⟩⟩ := exec_stopListening h
    · exact absurd hr (not_raised_ok _ _)
    · exact (hu.raisedFrom e.response).of_source rfl rfl id
  | teardown =>
    obtain ⟨-, -, -, u, ⟨-, rfl⟩ | ⟨hu | hu, e, rfl⟩⟩ := exec_teardown h
    · exact absurd hr (not_raised_ok _ _)
    · exact (hu.raisedFrom e.response).of_source rfl rfl id
    · exact (hu.raisedFrom e.response).of_source rfl rfl id
  | _ =>
    obtain ⟨-, u, r, hu, rfl⟩ := exec_plain rfl h
    exact (hu.raisedFrom r).of_source rfl rfl id

theorem enableAtRaise_other {i : Instr} (s : State) (h1 : i ≠ .stopListening) (h2 : i ≠ .teardown)
    (h3 : i ≠ .startListening) : enableAtRaise s i = s.ce := by
  unfold enableAtRaise
  split
  · exact absurd rfl h1
  · exact absurd rfl h2
  · exact absurd rfl h3
  · rfl

/-- Settles O55: an instruction by its inversion lemma, a running `write` by that of its iteration, and the
enable line by where `enableAtRaise` puts it. -/
theorem raisedOperationsLeaveTheBlockIdle : Obligations.RaisedOperationsLeaveTheBlockIdle := by
  intro s t r hresp hkind
  have hr : t.Raised := by simp [State.Raised, hresp, hkind]
  refine ⟨?_, fun i h => ?_, fun w hw hs h => (step_running_raised hw hs h hr).ce⟩
  · intro h
    obtain ⟨c, hc⟩ : ∃ c, RaisedFrom c s t := by
      obtain ⟨i, h⟩ | ⟨w, hw, hs, h⟩ := h
      · exact ⟨_, exec_raised h hr⟩
      · exact ⟨_, step_running_raised hw hs h hr⟩
    exact ⟨hc.life, hc.txFsm, hc.running, hc.port, hc.csn⟩
  · have hce := (exec_raised h hr).ce
    refine ⟨?_, ?_, ?_, fun h1 h2 h3 => hce.trans (enableAtRaise_other s h1 h2 h3)⟩
    · rintro (rfl | rfl) <;> exact hce
    · rintro rfl hio
      exact hce.trans (if_pos hio)
    · rintro rfl hio
      exact hce.trans (if_neg hio)

end Sys2Proof.Machine
end

section
/-! PROOF. The request port (30_encoding.md): the decoder reads every encoding back (R74, R75), what it accepts
is well-formed and of the space asked for (R77), and the Register Map reads both ways (R6, R23, R81). -/

namespace Sys2Proof

/-! ## Well-formedness, where operands are bounded (R77) -/

theorem okRegLen_iff {n : Nat} : okRegLen n = true ↔ 1 ≤ n ∧ n ≤ 5 := decide_eq_true_iff

theorem ite_reason_eq_none {p : Prop} [Decidable p] {r : IllFormed} :
    (if p then none else some r) = none ↔ p := by
  split <;> simp_all

theorem cmdRRegister_wellFormed_iff {a : RegAddr} {n : BitVec 3} :
    (Instr.cmdRRegister a n).WellFormed ↔ 1 ≤ n.toNat ∧ n.toNat ≤ 5 :=
  ite_reason_eq_none.trans okRegLen_iff

theorem cmdWRegister_wellFormed_iff {a : RegAddr} {data : List Byte} :
    (Instr.cmdWRegister a data).WellFormed ↔ 1 ≤ data.length ∧ data.length ≤ 5 :=
  ite_reason_eq_none.trans okRegLen_iff

theorem writeRegister_bytes_wellFormed_iff {r : RegOperand} {bs : List Byte} :
    (Instr.writeRegister r (.bytes bs)).WellFormed ↔ 1 ≤ bs.length ∧ bs.length ≤ 5 :=
  ite_reason_eq_none.trans okRegLen_iff

theorem openReadingPipe_wellFormed_iff {p : Pipe} {a : List Byte} :
    (Instr.openReadingPipe p a).WellFormed ↔ 1 ≤ a.length ∧ a.length ≤ 5 :=
  ite_reason_eq_none.trans okRegLen_iff

theorem openWritingPipe_wellFormed_iff {a : List Byte} :
    (Instr.openWritingPipe a).WellFormed ↔ 2 ≤ a.length ∧ a.length ≤ 5 :=
  ite_reason_eq_none

/-! ## Decoding an encoding (R74, R75) -/

/-- The encoding of a host operation is decoded by `decodeHost`, if that gives the operation back. -/
theorem decode_encode_host {i : Instr} {b : Byte} {xs : List Byte} (hw : i.WellFormed)
    (hs : i.space = .host) (hb : i.bytes = b :: xs) (h : decodeHost b xs = .ok i) :
    decode (encode i) = .ok i := by
  simp [decode, encode, hs, hb, h, Except.bind, checkWellFormed_wellFormed hw]

/-- The encoding of a bus command is decoded by `decodeBus`, if that gives the command back. -/
theorem decode_encode_bus {i : Instr} {b : Byte} {xs : List Byte} (hw : i.WellFormed)
    (hs : i.space = .bus) (hb : i.bytes = b :: xs) (h : decodeBus b xs = .ok i) :
    decode (encode i) = .ok i := by
  simp [decode, encode, hs, hb, h, Except.bind, checkWellFormed_wellFormed hw]

@[simp] theorem except_bind_ok_eq {ε α β : Type} (a : α) (f : α → Except ε β) :
    (Except.ok a).bind f = f a := rfl

@[simp] theorem except_map_ok_eq {ε α β : Type} (a : α) (f : α → β) :
    (Except.ok a : Except ε α).map f = .ok (f a) := rfl

@[simp] theorem byteAndRest_cons (f : Byte → List Byte → Except Reject Instr) (b : Byte) (bs : List Byte) :
    byteAndRest f (b :: bs) = f b bs := rfl

@[simp] theorem oneByte_singleton (f : Byte → Except Reject Instr) (b : Byte) : oneByte f [b] = f b := rfl

@[simp] theorem twoBytes_pair (f : Byte → Byte → Except Reject Instr) (a b : Byte) :
    twoBytes f [a, b] = f a b := rfl

/-- A counted sequence of at most five bytes is read back after its tag. -/
theorem decCounted_encCounted {bs : List Byte} (h : bs.length ≤ 5) (dflt : Nat) :
    decCounted (tagCount dflt (BitVec.ofNat 8 (bs.length + 1))) bs = .ok bs :=
  decCounted_tagCount (by omega) dflt

theorem decRegValue_encRegValue {r : RegOperand} {v : RegValue}
    (hw : (Instr.writeRegister r v).WellFormed) : decRegValue (encRegValue v) = .ok v := by
  cases v with
  | byte b => rfl
  | bytes bs =>
    obtain ⟨-, h5⟩ := writeRegister_bytes_wellFormed_iff.mp hw
    have htag : (bs.length + 1) % 256 = bs.length + 1 := by omega
    simp [decRegValue, encRegValue, encCounted, decCounted, htag]

theorem decTimeoutPayload_encTimeout (o : Option Nat) (payload : List Byte) :
    decTimeoutPayload (encTimeout o ++ payload) = .ok (o, payload) := by
  cases o with
  | none => rfl
  | some n => simp [decTimeoutPayload, encTimeout]

/-- The command byte of R_REGISTER says its address, and so does that of W_REGISTER (R62, R63). -/
theorem regCommand_bytes (a : RegAddr) :
    (a.setWidth 8).toNat < 0x20 ∧ (a.setWidth 8).setWidth 5 = a ∧
    ¬ (0x20#8 ||| a.setWidth 8).toNat < 0x20 ∧ (0x20#8 ||| a.setWidth 8).toNat < 0x40 ∧
    (0x20#8 ||| a.setWidth 8).setWidth 5 = a := by
  revert a; decide

/-- The command byte of W_ACK_PAYLOAD is above the register commands and says its pipe (R64). -/
theorem ackCommand_byte (p : Pipe) :
    ¬ (0xA8#8 ||| encPipe p).toNat < 0x20 ∧ ¬ (0xA8#8 ||| encPipe p).toNat < 0x40 ∧
    (0xA8#8 ||| encPipe p).toNat / 8 = 0x15 ∧ (0xA8#8 ||| encPipe p) &&& 7#8 = encPipe p := by
  revert p; decide

theorem decodeBus_rRegister (a : RegAddr) (n : BitVec 3) :
    decodeBus (a.setWidth 8) [encThreeBit n] = .ok (.cmdRRegister a n) := by
  obtain ⟨hlt, haddr, -⟩ := regCommand_bytes a
  rw [decodeBus, if_pos hlt, haddr]
  simp

theorem decodeBus_wRegister (a : RegAddr) {data : List Byte} (h : data.length ≤ 5) :
    decodeBus (0x20#8 ||| a.setWidth 8) (encCounted data) = .ok (.cmdWRegister a data) := by
  obtain ⟨-, -, hge, hlt, haddr⟩ := regCommand_bytes a
  rw [decodeBus, if_neg hge, if_pos hlt, haddr]
  simp [encCounted, decCounted_encCounted h]

theorem decodeBus_wAckPayload (p : Pipe) (data : List Byte) :
    decodeBus (0xA8#8 ||| encPipe p) data = .ok (.cmdWAckPayload p data) := by
  obtain ⟨hr, hw, hpipe, hlow⟩ := ackCommand_byte p
  rw [decodeBus, if_neg hr, if_neg hw, if_pos hpipe, hlow]
  simp

/-- Settles O7: by the instruction; each operand is read back by its own lemma, and an instruction without
operands is one word, whose decoding is computed. -/
theorem decodeOfEncodeIsTheInstruction : Obligations.DecodeOfEncodeIsTheInstruction := by
  intro i hw
  cases i with
  | cmdRRegister a n => exact decode_encode_bus hw rfl rfl (decodeBus_rRegister a n)
  | cmdWRegister a data =>
    exact decode_encode_bus hw rfl rfl (decodeBus_wRegister a (cmdWRegister_wellFormed_iff.mp hw).2)
  | cmdRRxPayload n => exact decode_encode_bus hw rfl rfl rfl
  | cmdWTxPayload data => exact decode_encode_bus hw rfl rfl rfl
  | cmdWTxPayloadNoack data => exact decode_encode_bus hw rfl rfl rfl
  | cmdWAckPayload p data => exact decode_encode_bus hw rfl rfl (decodeBus_wAckPayload p data)
  | readRegister r n => exact decode_encode_host hw rfl rfl (by simp [decodeHost])
  | writeRegister r v =>
    exact decode_encode_host hw rfl rfl (by simp [decodeHost, decRegValue_encRegValue hw])
  | sendCommand c n =>
    obtain ⟨tag, b, hbytes, hcmd⟩ := decCommand_encCommand c
    exact decode_encode_host hw rfl rfl (by simp [decodeHost, hbytes, hcmd])
  | setChannel ch => exact decode_encode_host hw rfl rfl rfl
  | rfSetup d p => exact decode_encode_host hw rfl rfl (by simp [decodeHost])
  | setCrcLength len => exact decode_encode_host hw rfl rfl (by simp [decodeHost])
  | setRetries d c => exact decode_encode_host hw rfl rfl (by simp [decodeHost])
  | setAddressWidth n => exact decode_encode_host hw rfl rfl (by simp [decodeHost])
  | openReadingPipe p a =>
    obtain ⟨-, h5⟩ := openReadingPipe_wellFormed_iff.mp hw
    exact decode_encode_host hw rfl rfl (by simp [decodeHost, encCounted, decCounted_encCounted h5])
  | closeReadingPipe p => exact decode_encode_host hw rfl rfl (by simp [decodeHost])
  | openWritingPipe a =>
    obtain ⟨-, h5⟩ := openWritingPipe_wellFormed_iff.mp hw
    exact decode_encode_host hw rfl rfl (by simp [decodeHost, encCounted, decCounted_encCounted h5])
  | write payload m o =>
    exact decode_encode_host hw rfl rfl (by simp [decodeHost, decTimeoutPayload_encTimeout])
  | setAckPayload p payload => exact decode_encode_host hw rfl rfl (by simp [decodeHost])
  | _ => rfl

/-! ## What decodes (R77) -/

/-- Whatever instruction a decoding gives is of the space. -/
def OfSpace (sp : Space) : Except Reject Instr → Prop
  | .ok i => i.space = sp
  | .error _ => True

section OfSpace
variable {sp : Space}

theorem ofSpace_map {α : Type} {x : Except Reject α} {f : α → Instr} (h : ∀ a, (f a).space = sp) :
    OfSpace sp (x.map f) := by
  cases x with
  | error r => trivial
  | ok a => exact h a

theorem ofSpace_bind {α : Type} {x : Except Reject α} {f : α → Except Reject Instr}
    (h : ∀ a, OfSpace sp (f a)) : OfSpace sp (x.bind f) := by
  cases x with
  | error r => trivial
  | ok a => exact h a

theorem ofSpace_noOperand {i : Instr} {xs : List Byte} (h : i.space = sp) : OfSpace sp (noOperand i xs) := by
  cases xs with
  | nil => exact h
  | cons b bs => trivial

theorem ofSpace_oneByte {f : Byte → Except Reject Instr} {xs : List Byte} (h : ∀ b, OfSpace sp (f b)) :
    OfSpace sp (oneByte f xs) := by
  match xs with
  | [] | _ :: _ :: _ => trivial
  | [b] => exact h b

theorem ofSpace_twoBytes {f : Byte → Byte → Except Reject Instr} {xs : List Byte}
    (h : ∀ a b, OfSpace sp (f a b)) : OfSpace sp (twoBytes f xs) := by
  match xs with
  | [] | [_] | _ :: _ :: _ :: _ => trivial
  | [a, b] => exact h a b

theorem ofSpace_byteAndRest {f : Byte → List Byte → Except Reject Instr} {xs : List Byte}
    (h : ∀ b bs, OfSpace sp (f b bs)) : OfSpace sp (byteAndRest f xs) := by
  match xs with
  | [] => trivial
  | b :: bs => exact h b bs

end OfSpace

/-- Every arm of `decodeHost` builds host operations, whatever the shape of its operands. -/
theorem decodeHost_ofSpace (b : Byte) (xs : List Byte) : OfSpace .host (decodeHost b xs) := by
  unfold decodeHost
  split
  case h_1 => exact ofSpace_twoBytes fun _ _ => ofSpace_bind fun _ => ofSpace_map fun _ => rfl
  case h_2 => exact ofSpace_byteAndRest fun _ _ => ofSpace_bind fun _ => ofSpace_map fun _ => rfl
  case h_3 => exact ofSpace_byteAndRest fun _ _ => ofSpace_twoBytes fun _ _ => ofSpace_map fun _ => rfl
  case h_4 => exact ofSpace_oneByte fun _ => rfl
  case h_6 => exact ofSpace_byteAndRest fun _ _ => ofSpace_map fun _ => rfl
  case h_9 => exact ofSpace_map fun _ => rfl
  case h_10 => exact ofSpace_twoBytes fun _ _ => ofSpace_bind fun _ => ofSpace_map fun _ => rfl
  case h_11 => exact ofSpace_oneByte fun _ => ofSpace_map fun _ => rfl
  case h_13 =>
    exact ofSpace_byteAndRest fun _ _ => ofSpace_bind fun _ => ofSpace_byteAndRest fun _ _ =>
      ofSpace_map fun _ => rfl
  case h_14 => exact ofSpace_oneByte fun _ => ofSpace_map fun _ => rfl
  case h_15 => exact ofSpace_byteAndRest fun _ _ => ofSpace_map fun _ => rfl
  case h_16 => exact ofSpace_byteAndRest fun _ _ => ofSpace_bind fun _ => ofSpace_map fun _ => rfl
  case h_18 => exact ofSpace_byteAndRest fun _ _ => ofSpace_map fun _ => rfl
  case h_35 => trivial
  all_goals exact ofSpace_noOperand rfl

/-- Every arm of `decodeBus` builds bus commands. -/
theorem decodeBus_ofSpace (c : Byte) (xs : List Byte) : OfSpace .bus (decodeBus c xs) := by
  unfold decodeBus
  split_ifs
  · exact ofSpace_oneByte fun _ => ofSpace_map fun _ => rfl
  · exact ofSpace_byteAndRest fun _ _ => ofSpace_map fun _ => rfl
  · exact ofSpace_map fun _ => rfl
  · split
    case h_3 => exact ofSpace_oneByte fun _ => rfl
    case h_4 | h_5 => rfl
    case h_10 => trivial
    all_goals exact ofSpace_noOperand rfl

/-- Settles O8: the check is the last thing `decode` does, and the instruction it checks comes from the decoder
of its space. -/
theorem whatDecodesIsWellFormed : Obligations.WhatDecodesIsWellFormed := by
  rintro ⟨space, bytes⟩ i h
  cases bytes with
  | nil => cases h
  | cons b xs =>
    cases space with
    | host =>
      obtain ⟨j, hj, hcheck⟩ := except_bind_ok h
      obtain ⟨rfl, hw⟩ := checkWellFormed_ok hcheck
      have hspace := decodeHost_ofSpace b xs
      rw [hj] at hspace
      exact ⟨hw, hspace⟩
    | bus =>
      obtain ⟨j, hj, hcheck⟩ := except_bind_ok h
      obtain ⟨rfl, hw⟩ := checkWellFormed_ok hcheck
      have hspace := decodeBus_ofSpace b xs
      rw [hj] at hspace
      exact ⟨hw, hspace⟩

/-- Settles O6: each word is decoded by computation. -/
theorem tableWordsDecodeToTheirInstructions : Obligations.TableWordsDecodeToTheirInstructions := by
  unfold Obligations.TableWordsDecodeToTheirInstructions
  decide

end Sys2Proof

namespace Sys2Proof.Machine

/-! ## The Register Map (R6, R23, R81) -/

theorem mem_allRegisters (id : RegisterId) : id ∈ allRegisters := by
  cases id with
  | rxAddrP p => revert p; decide
  | rxPwP p => revert p; decide
  | _ => decide

theorem mem_allCommands (c : CommandId) : c ∈ allCommands := by
  cases c <;> decide

/-- In a list whose images are all different, the first member with the image of another is that other. -/
theorem find?_image_eq_some {α β : Type} [DecidableEq β] {l : List α} {f : α → β} (hnd : (l.map f).Nodup)
    {a : α} (ha : a ∈ l) : (l.find? fun x => f x == f a) = some a := by
  induction l with
  | nil => cases ha
  | cons x xs ih =>
    obtain ⟨hx, hxs⟩ := List.nodup_cons.mp hnd
    obtain rfl | ha := List.mem_cons.mp ha
    · simp
    · have hne : f x ≠ f a := fun he => hx (he ▸ List.mem_map_of_mem ha)
      rw [List.find?_cons_of_neg (by simpa using hne)]
      exact ih hxs ha

theorem admissible_nodup {P : Params} (h : admissible P = true) :
    (allRegisters.map (addressOf P)).Nodup ∧ (allCommands.map (opcodeOf P)).Nodup := by
  simp only [admissible, Bool.and_eq_true, decide_eq_true_eq] at h
  obtain ⟨⟨⟨hreg, hcmd⟩, -⟩, -⟩ := h
  exact ⟨hreg, hcmd⟩

/-- Settles O9: a map without repeated images is read the other way by the first match; the two records are
checked by computation. -/
theorem registerMapIsBidirectional : Obligations.RegisterMapIsBidirectional := by
  refine ⟨fun P h => ?_, by decide, fun P h => by simp [admissible, h]⟩
  obtain ⟨hreg, hcmd⟩ := admissible_nodup h
  exact ⟨fun id => find?_image_eq_some hreg (mem_allRegisters id),
    fun c => find?_image_eq_some hcmd (mem_allCommands c)⟩

/-! ## Masks (R26, R71) -/

/-- A pipe's mask has the pipe's bit and no other. -/
theorem bitOf_pipeMask (p : Pipe) (k : BitNo) : bitOf (pipeMask p) k = decide (k.val = p.val) := by
  revert p k; decide

theorem bitOf_or (v w : Byte) (k : BitNo) : bitOf (v ||| w) k = (bitOf v k || bitOf w k) :=
  BitVec.getLsbD_or

theorem bitOf_and_not (v w : Byte) (k : BitNo) : bitOf (v &&& ~~~w) k = (bitOf v k && !bitOf w k) := by
  simp [bitOf, k.isLt]

/-- Settles O11: the bits of the mask, ORed in and masked out. -/
theorem pipeMaskTouchesExactlyItsBit : Obligations.PipeMaskTouchesExactlyItsBit := by
  intro v p k
  rw [bitOf_or, bitOf_and_not, bitOf_pipeMask]
  exact ⟨rfl, rfl⟩

end Sys2Proof.Machine
end

section
/-! PROOF. Acceptance (10_state.md section 2, 30_encoding.md section 4): which requests are refused, by the
decoder, by the check of the operands, by a running `write` and by the lifecycle (R17, R77, R217, R229). -/

namespace Sys2Proof.Machine

/-! ## Why a request is refused -/

theorem requestRefusal_of_running {i : Instr} {s : State} (h : s.running.isSome = true) :
    requestRefusal i s = some .operationRunning := if_pos h

theorem requestRefusal_of_illFormed {i : Instr} {s : State} {r : IllFormed} (hr : s.running = none)
    (hi : i.illFormed? = some r) : requestRefusal i s = some (.illFormed r) := by
  simp [requestRefusal, hr, hi]

theorem hostRefusal_of_request {i : Instr} {s : State} {r : Refusal} (h : requestRefusal i s = some r) :
    hostRefusal i s = some r := by
  simp [hostRefusal, h]

theorem hostRefusal_of_uninitialised {i : Instr} {s : State} (hr : s.running = none) (hw : i.WellFormed)
    (hl : s.life.initialised = false) : hostRefusal i s = some .notInitialised := by
  simp [hostRefusal, requestRefusal_none hr hw, hl]

theorem addressRefusal_of_host {i : Instr} {s : State} {r : Refusal} {full : Bool} {a : List Byte}
    (h : hostRefusal i s = some r) : addressRefusal i full a s = some r := by
  simp [addressRefusal, h]

/-- A full address that is not as long as the cached width is refused in a ready block (R140, R142). -/
theorem addressRefusal_of_length {i : Instr} {s : State} {a : List Byte} (hs : Ready s) (hw : i.WellFormed)
    (ha : a.length ≠ s.dh.addressWidth) : addressRefusal i true a s = some .addressLength := by
  simp [addressRefusal, hostRefusal_none hs.1.1 hs.2 hw, ha]

theorem initRefusal_of_request {i : Instr} {s : State} {r : Refusal} (h : requestRefusal i s = some r) :
    initRefusal i s = some r := by
  simp [initRefusal, h]

theorem teardownRefusal_of_host {s : State} {r : Refusal} (h : hostRefusal .teardown s = some r) :
    teardownRefusal s = some r := by
  simp [teardownRefusal, h]

/-! ## Refused by `exec` -/

theorem hostOp_refused {i : Instr} {s : State} {r : Refusal} {body : State → Ended Response}
    (h : hostRefusal i s = some r) : hostOp i body s = .refused r := by
  rw [hostOp, h, accept_some]

theorem busOp_refused {i : Instr} {s : State} {r : Refusal} {body : State → Ended Response}
    (h : requestRefusal i s = some r) : busOp i body s = .refused r := by
  rw [busOp, h, accept_some]

theorem accept_refused {ref : Option Refusal} {s : State} {r : Refusal} {body : State → Ended Response}
    (h : ref = some r) : accept ref body s = .refused r := by
  rw [h, accept_some]

theorem execDataAvailable_refused {s : State} {r : Refusal} (h : hostRefusal .dataAvailable s = some r) :
    execDataAvailable s = .refused r := by
  simp [execDataAvailable, h]

theorem execWrite_refused {s : State} {r : Refusal} {payload : List Byte} {mode : AckMode}
    {timeout : Option Nat} (h : hostRefusal (.write payload mode timeout) s = some r) :
    execWrite payload mode timeout s = .refused r := by
  simp [execWrite, h]

/-- What `hostRefusal` refuses, `exec` refuses, of every host operation but `init` (R17, R77, R229). -/
theorem exec_host_refused {i : Instr} {s : State} {r : Refusal} (hsp : i.space = .host) (hi : i ≠ .init)
    (h : hostRefusal i s = some r) : exec i s = .refused r := by
  unfold exec
  cases i with
  | cmdRRegister | cmdWRegister | cmdRRxPayload | cmdWTxPayload | cmdWTxPayloadNoack | cmdRRxPlWid
  | cmdWAckPayload | cmdFlushTx | cmdFlushRx | cmdReuseTxPl | cmdActivate | cmdNop => cases hsp
  | openReadingPipe | openWritingPipe => exact accept_refused (addressRefusal_of_host h)
  | write payload mode timeout => exact execWrite_refused h
  | dataAvailable => exact execDataAvailable_refused h
  | init => exact absurd rfl hi
  | teardown => exact accept_refused (teardownRefusal_of_host h)
  | _ => exact hostOp_refused h

/-- What `requestRefusal` refuses, `exec` refuses, of every instruction (R77, R229). -/
theorem exec_refused {i : Instr} {s : State} {r : Refusal} (h : requestRefusal i s = some r) :
    exec i s = .refused r := by
  cases hsp : i.space with
  | host =>
    by_cases hi : i = .init
    · subst hi
      show execInit s = _
      exact accept_refused (initRefusal_of_request h)
    · exact exec_host_refused hsp hi (hostRefusal_of_request h)
  | bus =>
    unfold exec
    cases i with
    | cmdRRegister | cmdWRegister | cmdRRxPayload | cmdWTxPayload | cmdWTxPayloadNoack | cmdRRxPlWid
    | cmdWAckPayload | cmdFlushTx | cmdFlushRx | cmdReuseTxPl | cmdActivate | cmdNop =>
      exact busOp_refused h
    | _ => cases hsp

/-- Settles O3: both reasons are found before the lifecycle or the parameters are looked at. -/
theorem meaninglessRequestsAreRefused : Obligations.MeaninglessRequestsAreRefused := by
  intro s i
  exact ⟨fun w hw => exec_refused (requestRefusal_of_running (by simp [hw])),
    fun r hr hi => exec_refused (requestRefusal_of_illFormed hr hi)⟩

/-- A block that is not initialised refuses every well-formed host operation but `init` (R17). -/
theorem exec_uninitialised {i : Instr} {s : State} (hr : s.running = none)
    (hl : s.life.initialised = false) (hsp : i.space = .host) (hi : i ≠ .init) (hw : i.WellFormed) :
    exec i s = .refused .notInitialised :=
  exec_host_refused hsp hi (hostRefusal_of_uninitialised hr hw hl)

/-- `init` is accepted in every lifecycle state, with a static size of 1 or more (R11, R190). -/
theorem initRefusal_none {s : State} (hr : s.running = none) (hreq : 1 ≤ s.params.staticPayloadSizeReq) :
    initRefusal .init s = none := by
  have hsize : ¬ s.params.staticPayloadSizeReq < 1 := by omega
  have hreq : requestRefusal .init s = none := requestRefusal_none hr rfl
  simp [initRefusal, hreq, hsize]

theorem exec_init_eq {s : State} (hr : s.running = none) (hreq : 1 ≤ s.params.staticPayloadSizeReq) :
    exec .init s = .next (finish ((initSequence s.begin).thenLife .standby)) := by
  show execInit s = _
  rw [execInit, initRefusal_none hr hreq, accept_none]

/-- Settles O2: the lifecycle refuses every host operation but `init`, and `init` looks at the size alone. -/
theorem onlyInitIsAcceptedOutsideTheLifecycle : Obligations.OnlyInitIsAcceptedOutsideTheLifecycle := by
  intro s hlife hr
  have hl : s.life.initialised = false := by
    obtain h | h := hlife <;> rw [h] <;> rfl
  exact ⟨fun i hsp hi hw => exec_uninitialised hr hl hsp hi hw, fun hreq => ⟨_, exec_init_eq hr hreq⟩⟩

/-! ## Operands outside their domains -/

theorem illFormed_readRegister {r : RegOperand} {n : BitVec 3} (h : n.toNat = 0 ∨ 5 < n.toNat) :
    (Instr.readRegister r n).illFormed? = some .length := by
  have hn : ¬ okRegLen n.toNat = true := by rw [okRegLen_iff]; omega
  exact if_neg hn

theorem illFormed_writeRegister {r : RegOperand} {bs : List Byte} (h : bs.length = 0 ∨ 5 < bs.length) :
    (Instr.writeRegister r (.bytes bs)).illFormed? = some .dataLength := by
  have hn : ¬ okRegLen bs.length = true := by rw [okRegLen_iff]; omega
  exact if_neg hn

theorem illFormed_setAddressWidth {n : BitVec 3} (h : n.toNat < 2 ∨ 5 < n.toNat) :
    (Instr.setAddressWidth n).illFormed? = some .width :=
  if_neg (by omega)

theorem illFormed_openReadingPipe {p : Pipe} {a : List Byte} (h : a.length = 0 ∨ 5 < a.length) :
    (Instr.openReadingPipe p a).illFormed? = some .addressLength := by
  have hn : ¬ okRegLen a.length = true := by rw [okRegLen_iff]; omega
  exact if_neg hn

theorem illFormed_openWritingPipe {a : List Byte} (h : a.length < 2 ∨ 5 < a.length) :
    (Instr.openWritingPipe a).illFormed? = some .addressLength :=
  if_neg (by omega)

theorem exec_openReadingPipe_wrongLength {s : State} {p : Pipe} {a : List Byte} (hs : Ready s)
    (hp : p.val ≤ 1) (h1 : 1 ≤ a.length) (h5 : a.length ≤ 5) (ha : a.length ≠ s.dh.addressWidth) :
    exec (.openReadingPipe p a) s = .refused .addressLength := by
  have hfull : decide (p.val ≤ 1) = true := decide_eq_true hp
  show execOpenReadingPipe p a s = _
  rw [execOpenReadingPipe, hfull]
  exact accept_refused (addressRefusal_of_length hs (openReadingPipe_wellFormed_iff.mpr ⟨h1, h5⟩) ha)

theorem exec_openWritingPipe_wrongLength {s : State} {a : List Byte} (hs : Ready s)
    (h2 : 2 ≤ a.length) (h5 : a.length ≤ 5) (ha : a.length ≠ s.dh.addressWidth) :
    exec (.openWritingPipe a) s = .refused .addressLength := by
  show execOpenWritingPipe a s = _
  exact accept_refused (addressRefusal_of_length hs (openWritingPipe_wellFormed_iff.mpr ⟨h2, h5⟩) ha)

theorem decNibble_large {b : Byte} (h : 15 < b.toNat) : decNibble b = .error .nibble :=
  if_neg (by omega)

theorem decPipe_large {b : Byte} (h : 5 < b.toNat) : decPipe b = .error .pipe :=
  dif_neg (by omega)

theorem decode_setRetries_large {d c : Byte} (h : 15 < d.toNat ∨ 15 < c.toNat) :
    decode ⟨.host, [0x0E#8, d, c]⟩ = .error .nibble := by
  by_cases hd : 15 < d.toNat
  · simp [decode, decodeHost, decNibble_large hd, Except.bind]
  · have hc := h.resolve_left hd
    have hdok : decNibble d = .ok (d.setWidth 4) := if_pos (by omega)
    simp [decode, decodeHost, hdok, decNibble_large hc, Except.bind, Except.map]

/-- Settles O4: the check of the operands, then the address lengths, then the decoder. -/
theorem operandsOutsideTheirDomainsAreRefused : Obligations.OperandsOutsideTheirDomainsAreRefused := by
  refine ⟨fun s hs => ?_, fun d c => decode_setRetries_large, fun p rest hp => ?_⟩
  · have hill {i : Instr} {r : IllFormed} (h : i.illFormed? = some r) : exec i s = .refused (.illFormed r) :=
      exec_refused (requestRefusal_of_illFormed hs.1.1 h)
    exact ⟨fun r n h => hill (illFormed_readRegister h), fun r bs h => hill (illFormed_writeRegister h),
      fun n h => hill (illFormed_setAddressWidth h), fun p a h => hill (illFormed_openReadingPipe h),
      fun p a => exec_openReadingPipe_wrongLength hs, fun a h => hill (illFormed_openWritingPipe h),
      fun a => exec_openWritingPipe_wrongLength hs⟩
  · have hpipe := decPipe_large hp
    refine ⟨?_, ?_, ?_⟩ <;> simp [decode, decodeHost, hpipe, Except.bind, Except.map]

end Sys2Proof.Machine
end

section
/-! PROOF. The whole machine (10_state.md, 20_memory.md section 4, 70_reset_and_hazards.md): what every
instruction and every step keeps, each derived from the inversion of `exec` and of `pollOnce`. -/

namespace Sys2Proof.Machine

/-! ## The invariant of the block, as it holds inside an operation too -/

/-- The part of `State.Inv` that speaks of no running operation: it holds between the pieces of an operation,
and only the pulse leaves it for a moment (R15, R17, R19, R92). -/
structure State.Sound (s : State) : Prop where
  csnReleased : s.csn = .released
  traceFramed : scanFrames .outside s.trace = some .outside
  enableMatches : enableAfter .low s.trace = s.ce
  notTransmitting : s.life ≠ .transmitting
  sizeBound : s.life ≠ .uninitialized → s.dh.staticPayloadSize ≤ 32
  sizePositive : s.life.initialised = true → 1 ≤ s.dh.staticPayloadSize
  widthRange : s.life.initialised = true → 2 ≤ s.dh.addressWidth ∧ s.dh.addressWidth ≤ 5
  cacheLength : ∀ a, s.dh.pipe0ReadingAddress = some a → 2 ≤ a.length ∧ a.length ≤ 5
  lineIdentities : s.dh.enablePin = s.params.enableLineId ∧ s.dh.chipSelect = s.params.chipSelectId

theorem State.Inv.sound {s : State} (h : s.Inv) : s.Sound :=
  ⟨h.csnReleased, h.traceFramed, h.enableMatches, h.notTransmitting, h.sizeBound, h.sizePositive,
    h.widthRange, h.cacheLength, h.lineIdentities⟩

namespace State.Sound
variable {s t : State}

theorem begin (h : s.Sound) : s.begin.Sound := { h with }

theorem setTxFsm (h : s.Sound) (f : TxFsm) : (s.setTxFsm f).Sound := { h with }

theorem setRunning (h : s.Sound) (w : Option PendingWrite) : (s.setRunning w).Sound := { h with }

theorem readClock (h : s.Sound) : s.readClock.Sound := { h with }

/-- Bus activity is whole frames and leaves everything else the invariant speaks of. -/
theorem busOnly (h : s.Sound) (hb : BusOnly s t) : t.Sound where
  csnReleased := hb.csn h.csnReleased
  traceFramed := by
    obtain ⟨es, htrace, hframes, -⟩ := hb.trace
    rw [htrace]
    exact scanFrames_append_outside h.traceFramed hframes
  enableMatches := by
    obtain ⟨es, htrace, -, hnone⟩ := hb.trace
    rw [htrace, enableAfter_append, h.enableMatches, enableAfter_noEnable _ hnone, hb.ce]
  notTransmitting := hb.life ▸ h.notTransmitting
  sizeBound := by rw [hb.life, hb.dh]; exact h.sizeBound
  sizePositive := by rw [hb.life, hb.dh]; exact h.sizePositive
  widthRange := by rw [hb.life, hb.dh]; exact h.widthRange
  cacheLength := by rw [hb.dh]; exact h.cacheLength
  lineIdentities := by rw [hb.dh, hb.params]; exact h.lineIdentities

theorem raiseEnable (h : s.Sound) : s.raiseEnable.Sound :=
  { h with
    traceFramed := scanFrames_append_outside h.traceFramed rfl
    enableMatches := enableAfter_append _ _ _ }

theorem dropEnable (h : s.Sound) : s.dropEnable.Sound :=
  { h with
    traceFramed := scanFrames_append_outside h.traceFramed rfl
    enableMatches := enableAfter_append _ _ _ }

/-- Between initialised lifecycle states the handle is held to the same bounds. -/
theorem setLife (h : s.Sound) (hs : s.life.initialised = true) {l : Life} (hl : l ≠ .transmitting) :
    (s.setLife l).Sound :=
  { h with
    notTransmitting := hl
    sizeBound := fun _ => h.sizeBound (by rintro hu; rw [hu] at hs; cases hs)
    sizePositive := fun _ => h.sizePositive hs
    widthRange := fun _ => h.widthRange hs }

/-- The pulse passes through TRANSMITTING and ends in STANDBY (R154). -/
theorem pulseEnable (h : s.Sound) (hs : s.life.initialised = true) : (pulseEnable s).Sound :=
  h.raiseEnable.dropEnable.setLife hs (by decide)

/-- The handle `init` leaves is within its bounds in every lifecycle state. -/
theorem initHandle (h : s.Sound) (hreq : 1 ≤ s.params.staticPayloadSizeReq) (l : Life)
    (hl : l ≠ .transmitting) : ((s.withHandle (initHandle s)).setLife l).Sound :=
  { h with
    notTransmitting := hl
    sizeBound := fun _ => by simp [Machine.initHandle, clampedSize]
    sizePositive := fun _ => by simp [Machine.initHandle, clampedSize]; omega
    widthRange := fun _ => by simp [Machine.initHandle]
    cacheLength := fun _ => by simp [Machine.initHandle] }

/-- So is the handle of an `init` that its SETUP_AW write ended, which keeps the width. -/
theorem loadedHandle (h : s.Sound) (hreq : 1 ≤ s.params.staticPayloadSizeReq) :
    (s.withHandle (loadedHandle s)).Sound :=
  { h with
    sizeBound := fun _ => by simp [Machine.loadedHandle, clampedSize]
    sizePositive := fun _ => by simp [Machine.loadedHandle, clampedSize]; omega
    cacheLength := fun _ => by simp [Machine.loadedHandle] }

theorem cacheAddress (h : s.Sound) {a : List Byte} (h2 : 2 ≤ a.length) (h5 : a.length ≤ 5) :
    (s.withHandle { s.dh with pipe0ReadingAddress := some a }).Sound :=
  { h with
    cacheLength := by rintro b ⟨⟩; exact ⟨h2, h5⟩ }

theorem setAddressWidth (h : s.Sound) {n : Nat} (h2 : 2 ≤ n) (h5 : n ≤ 5) : (s.setAddressWidth n).Sound :=
  { h with
    widthRange := fun _ => ⟨h2, h5⟩ }

/-- An operation that is over leaves the block idle, so nothing more is asked (R18, R74). -/
theorem respond (h : s.Sound) (r : Response) : (s.respond r).Inv :=
  { h with
    fsmMatches := rfl
    startBeforeNow := nofun
    runningInitialised := nofun
    runningUnanswered := nofun }

end State.Sound

/-- A lifecycle state set before and after bus activity alone. -/
theorem BusOnly.setLife {s t : State} (h : BusOnly s t) (l : Life) : BusOnly (s.setLife l) (t.setLife l) :=
  { h with life := rfl }

/-! ## Every step keeps the invariant -/

theorem startWrite_inv {w : PendingWrite} {s : State} (h : s.Sound) (hl : s.life.initialised = true)
    (hw : w.t0 ≤ s.env.ticked.now) : (startWrite w s).Inv :=
  { h with
    fsmMatches := rfl
    startBeforeNow := by rintro _ ⟨⟩; exact hw
    runningInitialised := fun _ => hl
    runningUnanswered := fun _ => rfl }

/-- A `write` that polls on is as it was, later (R151, R226). -/
theorem pollOn_inv {s u : State} (h : s.Inv) (hu : BusOnly s u) : u.readClock.Inv :=
  { (h.sound.busOnly hu).readClock with
    fsmMatches := by
      show u.txFsm = if u.running.isSome then .pollFifo else .idle
      rw [hu.txFsm, hu.running]; exact h.fsmMatches
    startBeforeNow := by
      intro w hw
      obtain ⟨m, n, henv⟩ := hu.env
      have hstart := h.startBeforeNow w (hu.running ▸ hw)
      have hnow : u.env.now = s.env.now := by rw [henv]; rfl
      show w.t0 ≤ u.env.now + _
      omega
    runningInitialised := by
      show u.running.isSome → u.life.initialised = true
      rw [hu.running, hu.life]; exact h.runningInitialised
    runningUnanswered := by
      show u.running.isSome → u.response = none
      rw [hu.running, hu.response]; exact h.runningUnanswered }

/-- One iteration of the polling loop of an initialised block keeps the invariant. -/
theorem pollOnce_inv {w : PendingWrite} {s : State} (h : s.Inv) (hl : s.life.initialised = true) :
    (pollOnce w s).Inv := by
  obtain ⟨u, hu, ⟨r, -, ht⟩ | ⟨v, hv, ht | ⟨e, ht⟩⟩ | ⟨-, ht⟩ | ht⟩ := pollOnce_cases w s <;> rw [ht]
  · exact (h.sound.busOnly hu).respond r
  · have hlv : v.life.initialised = true := by
      rw [hv.life, State.setTxFsm_life, hu.life]; exact hl
    have hsound := ((h.sound.busOnly hu).setTxFsm .write).busOnly hv
    exact ((hsound.setTxFsm .pulseEnable).pulseEnable hlv).respond _
  · exact (((h.sound.busOnly hu).setTxFsm .write).busOnly hv).respond _
  · exact (h.sound.busOnly hu).readClock.respond _
  · exact pollOn_inv h hu

theorem exec_init_inv {s t : State} (h : exec .init s = .next t) (hs : s.Sound) : t.Inv := by
  obtain ⟨-, hreq, u, ⟨hu, rfl⟩ | ⟨hu | hu, e, rfl⟩⟩ := exec_init h
  · exact ((hs.begin.initHandle hreq .standby (by decide)).busOnly (hu.setLife .standby)).respond _
  · exact ((hs.begin.initHandle hreq _ hs.notTransmitting).busOnly hu).respond _
  · exact ((hs.begin.loadedHandle hreq).busOnly hu).respond _

theorem exec_teardown_inv {s t : State} (h : exec .teardown s = .next t) (hs : s.Sound) : t.Inv := by
  have hlow := hs.begin.dropEnable
  obtain ⟨-, hreq, -, u, ⟨hu, rfl⟩ | ⟨hu | hu, e, rfl⟩⟩ := exec_teardown h
  · exact ((hlow.initHandle hreq .tornDown (by decide)).busOnly (hu.setLife .tornDown)).respond _
  · exact ((hlow.initHandle hreq _ hs.notTransmitting).busOnly hu).respond _
  · exact ((hlow.loadedHandle hreq).busOnly hu).respond _

theorem exec_startListening_inv {s t : State} (h : exec .startListening s = .next t) (hs : s.Sound) :
    t.Inv := by
  obtain ⟨-, hl, u, ⟨hu, e, rfl⟩ | ⟨v, hv, hu, rfl | ⟨e, rfl⟩⟩⟩ := exec_startListening h
  · exact (hs.begin.busOnly hu).respond _
  · have hlu : u.life.initialised = true := by
      rw [hu.life, State.raiseEnable_life, hv.life]; exact hl
    exact (((hs.begin.busOnly hv).raiseEnable.busOnly hu).setLife hlu (by decide)).respond _
  · exact ((hs.begin.busOnly hv).raiseEnable.busOnly hu).respond _

theorem exec_stopListening_inv {s t : State} (h : exec .stopListening s = .next t) (hs : s.Sound) :
    t.Inv := by
  obtain ⟨-, hl, u, hu, rfl | ⟨e, rfl⟩⟩ := exec_stopListening h
  · have hlu : u.life.initialised = true := by rw [hu.life]; exact hl
    exact ((hs.begin.dropEnable.busOnly hu).setLife hlu (by decide)).respond _
  · exact (hs.begin.dropEnable.busOnly hu).respond _

/-- Every instruction that is accepted leaves the invariant, from any state that holds its part that speaks of
no running operation. -/
theorem exec_inv {i : Instr} {s t : State} (h : exec i s = .next t) (hs : s.Sound) : t.Inv := by
  cases i with
  | setAddressWidth n =>
    obtain ⟨-, h2, h5, -, u, hu, rfl | ⟨e, rfl⟩⟩ := exec_setAddressWidth h
    · exact ((hs.begin.busOnly hu).setAddressWidth h2 h5).respond _
    · exact (hs.begin.busOnly hu).respond _
  | openReadingPipe p a =>
    obtain ⟨-, hl, hlen, u, r, rfl, hu | ⟨hp, hu⟩⟩ := exec_openReadingPipe h
    · exact (hs.begin.busOnly hu).respond r
    · obtain ⟨h2, h5⟩ := hs.widthRange hl
      rw [← hlen (by omega)] at h2 h5
      exact ((hs.begin.cacheAddress h2 h5).busOnly hu).respond r
  | write payload mode timeout =>
    obtain ⟨-, hl, rfl⟩ := exec_write h
    exact pollOnce_inv (startWrite_inv hs hl le_rfl) hl
  | init => exact exec_init_inv h hs
  | startListening => exact exec_startListening_inv h hs
  | stopListening => exact exec_stopListening_inv h hs
  | teardown => exact exec_teardown_inv h hs
  | _ =>
    obtain ⟨-, u, r, hu, rfl⟩ := exec_plain rfl h
    exact (hs.begin.busOnly hu).respond r

/-- Settles O60: a step is an iteration of the running `write`, nothing, or an instruction, and each keeps the
invariant. -/
theorem everyStepKeepsTheInvariant : Obligations.EveryStepKeepsTheInvariant := by
  intro s t hinv h
  obtain ⟨w, hw, rfl⟩ | ⟨-, -, rfl⟩ | ⟨rq, rest, i, -, -, -, hexec⟩ := step_cases h
  · exact pollOnce_inv hinv (hinv.runningInitialised (by simp [hw]))
  · exact hinv
  · exact exec_inv hexec { hinv.sound with }

/-- Settles O1: each field of the reset state, as it is written. -/
theorem resetLeavesTheBlockUninitialised : Obligations.ResetLeavesTheBlockUninitialised :=
  ⟨rfl, rfl, rfl, rfl, rfl, rfl, rfl, rfl, rfl⟩

/-- Settles O59: at reset nothing was emitted and nothing runs, and the block is not initialised. -/
theorem invariantHoldsAtReset : Obligations.InvariantHoldsAtReset where
  csnReleased := rfl
  traceFramed := rfl
  enableMatches := rfl
  fsmMatches := rfl
  notTransmitting := by decide
  sizeBound h := absurd rfl h
  sizePositive := nofun
  widthRange := nofun
  cacheLength := nofun
  lineIdentities := ⟨rfl, rfl⟩
  startBeforeNow := nofun
  runningInitialised := nofun
  runningUnanswered := nofun

/-- Settles O5: `step` by its three branches, and the decoder's two answers. -/
theorem stepRunsTheDecodedInstruction : Obligations.StepRunsTheDecodedInstruction := by
  refine ⟨fun s rq rest i hr hp hd => ?_, fun s rq rest r hr hp hd => ?_, fun s hr hp => ?_,
    fun s w hw => ?_⟩
  · simp [step, fetch, hr, hp, hd]
  · simp [step, fetch, hr, hp, hd]
  · simp [step, fetch, hr, hp]
  · simp [step, hw]

end Sys2Proof.Machine
end

section
/-! PROOF. Who writes what (10_state.md sections 1 and 2, 20_memory.md section 4, 60_exceptions.md section 2):
the DeviceHandle, the enable line, the lifecycle state, the trace and the draws, by the inversion of `exec`. -/

namespace Sys2Proof.Machine

/-! ## The DeviceHandle (R11 to R14) -/

/-- No iteration of a `write` writes the DeviceHandle. -/
theorem pollOnce_dh (w : PendingWrite) (s : State) : (pollOnce w s).dh = s.dh := by
  obtain ⟨u, hu, ⟨r, -, ht⟩ | ⟨v, hv, ht | ⟨e, ht⟩⟩ | ⟨-, ht⟩ | ht⟩ := pollOnce_cases w s <;> rw [ht]
  · exact hu.dh
  · exact hv.dh.trans hu.dh
  · exact hv.dh.trans hu.dh
  · exact hu.dh
  · exact hu.dh

/-- What an instruction can make of the DeviceHandle: one field of it, or what `init` loads. -/
inductive HandleWrite (s : State) : Instr → DeviceHandle → Prop
  | kept (i : Instr) : HandleWrite s i s.dh
  | width (n : BitVec 3) : HandleWrite s (.setAddressWidth n) { s.dh with addressWidth := n.toNat }
  | cache (a : List Byte) :
    HandleWrite s (.openReadingPipe 0 a) { s.dh with pipe0ReadingAddress := some a }
  | init {i : Instr} (hi : i = .init ∨ i = .teardown) : HandleWrite s i (initHandle s)
  | loaded {i : Instr} (hi : i = .init ∨ i = .teardown) : HandleWrite s i (loadedHandle s)

theorem HandleWrite.of_eq {s : State} {i : Instr} {d d' : DeviceHandle} (h : HandleWrite s i d)
    (hd : d' = d) : HandleWrite s i d' := hd ▸ h

theorem exec_handleWrite {i : Instr} {s t : State} (h : exec i s = .next t) : HandleWrite s i t.dh := by
  cases i with
  | setAddressWidth n =>
    obtain ⟨-, -, -, -, u, hu, rfl | ⟨e, rfl⟩⟩ := exec_setAddressWidth h
    · have hdh : u.dh = s.dh := hu.dh
      rw [State.respond_dh, State.setAddressWidth_dh, hdh]
      exact .width n
    · exact (HandleWrite.kept _).of_eq hu.dh
  | openReadingPipe p a =>
    obtain ⟨-, -, -, u, r, rfl, hu | ⟨hp, hu⟩⟩ := exec_openReadingPipe h
    · exact (HandleWrite.kept _).of_eq hu.dh
    · obtain rfl : p = 0 := Fin.ext hp
      exact (HandleWrite.cache a).of_eq hu.dh
  | write payload mode timeout =>
    obtain ⟨-, -, rfl⟩ := exec_write h
    exact (HandleWrite.kept _).of_eq (pollOnce_dh _ _)
  | init =>
    obtain ⟨-, -, u, ⟨hu, rfl⟩ | ⟨hu | hu, e, rfl⟩⟩ := exec_init h
    · exact (HandleWrite.init (.inl rfl)).of_eq hu.dh
    · exact (HandleWrite.init (.inl rfl)).of_eq hu.dh
    · exact (HandleWrite.loaded (.inl rfl)).of_eq hu.dh
  | teardown =>
    obtain ⟨-, -, -, u, ⟨hu, rfl⟩ | ⟨hu | hu, e, rfl⟩⟩ := exec_teardown h
    · exact (HandleWrite.init (.inr rfl)).of_eq hu.dh
    · exact (HandleWrite.init (.inr rfl)).of_eq hu.dh
    · exact (HandleWrite.loaded (.inr rfl)).of_eq hu.dh
  | startListening =>
    obtain ⟨-, -, u, ⟨hu, e, rfl⟩ | ⟨v, hv, hu, rfl | ⟨e, rfl⟩⟩⟩ := exec_startListening h
    · exact (HandleWrite.kept _).of_eq hu.dh
    · exact (HandleWrite.kept _).of_eq (hu.dh.trans hv.dh)
    · exact (HandleWrite.kept _).of_eq (hu.dh.trans hv.dh)
  | stopListening =>
    obtain ⟨-, -, u, hu, rfl | ⟨e, rfl⟩⟩ := exec_stopListening h
    · exact (HandleWrite.kept _).of_eq hu.dh
    · exact (HandleWrite.kept _).of_eq hu.dh
  | _ =>
    obtain ⟨-, u, r, hu, rfl⟩ := exec_plain rfl h
    exact (HandleWrite.kept _).of_eq hu.dh

/-- Settles O56: by what the instruction made of the handle; an iteration of a `write` makes nothing of it. -/
theorem deviceHandleFieldsHaveTheirWriters : Obligations.DeviceHandleFieldsHaveTheirWriters := by
  refine ⟨fun i s t h => ?_, fun s t w hw h => ?_⟩
  · have hwrite := exec_handleWrite h
    generalize t.dh = d at hwrite
    cases hwrite with
    | kept => exact ⟨absurd rfl, absurd rfl, absurd rfl, rfl, rfl⟩
    | width n => exact ⟨absurd rfl, fun _ => .inr (.inr ⟨n, rfl⟩), absurd rfl, rfl, rfl⟩
    | cache a => exact ⟨absurd rfl, absurd rfl, fun _ => .inr (.inr ⟨a, rfl⟩), rfl, rfl⟩
    | init hi => exact ⟨fun _ => hi, fun _ => hi.imp_right .inl, fun _ => hi.imp_right .inl, rfl, rfl⟩
    | loaded hi => exact ⟨fun _ => hi, absurd rfl, fun _ => hi.imp_right .inl, rfl, rfl⟩
  · rw [step, hw] at h
    cases h
    exact pollOnce_dh w s

/-! ## The enable line and the lifecycle state (R17, R19) -/

/-- Settles O57: the instructions named are allowed both, `init` the lifecycle state, and the others are bus
activity with a change of the handle at most. -/
theorem enableLineAndLifeHaveTheirWriters : Obligations.EnableLineAndLifeHaveTheirWriters := by
  intro i s t h
  cases i with
  | setAddressWidth n =>
    obtain ⟨-, -, -, -, u, hu, rfl | ⟨e, rfl⟩⟩ := exec_setAddressWidth h
    · exact ⟨absurd hu.ce, absurd hu.life⟩
    · exact ⟨absurd hu.ce, absurd hu.life⟩
  | openReadingPipe p a =>
    obtain ⟨-, -, -, u, r, rfl, hu | ⟨-, hu⟩⟩ := exec_openReadingPipe h
    · exact ⟨absurd hu.ce, absurd hu.life⟩
    · exact ⟨absurd hu.ce, absurd hu.life⟩
  | init =>
    refine ⟨?_, fun _ => .inl rfl⟩
    obtain ⟨-, -, u, ⟨hu, rfl⟩ | ⟨hu | hu, e, rfl⟩⟩ := exec_init h
    · exact absurd hu.ce
    · exact absurd hu.ce
    · exact absurd hu.ce
  | write payload mode timeout => simp
  | startListening => simp
  | stopListening => simp
  | teardown => simp
  | _ =>
    obtain ⟨-, u, r, hu, rfl⟩ := exec_plain rfl h
    exact ⟨absurd hu.ce, absurd hu.life⟩

/-! ## A `write` that was not sent (R218) -/

/-- `t` is `s` with the enable line, the lifecycle state and the handle untouched. -/
def Untouched (s t : State) : Prop :=
  t.ce = s.ce ∧ t.life = s.life ∧ t.dh = s.dh ∧
  ∃ es, t.trace = s.trace ++ es ∧ Event.ceHigh ∉ es ∧ Event.ceLow ∉ es

theorem BusOnly.untouched {s t : State} (h : BusOnly s t) : Untouched s t := by
  obtain ⟨es, htrace, -, hhigh, hlow⟩ := h.trace
  exact ⟨h.ce, h.life, h.dh, es, htrace, hhigh, hlow⟩

/-- Between two pieces of bus activity, `tx_fsm` is all that may change. -/
theorem BusOnly.untouched_trans {s u v : State} {f : TxFsm} (h : BusOnly s u)
    (h' : BusOnly (u.setTxFsm f) v) : Untouched s v :=
  (h.trans (u := v.setTxFsm u.txFsm) { h' with txFsm := rfl }).untouched

theorem pollOnce_untouched {w : PendingWrite} {s : State}
    (h : (pollOnce w s).response ≠ some (.ok .okSymbol)) : Untouched s (pollOnce w s) := by
  obtain ⟨u, hu, ⟨r, -, ht⟩ | ⟨v, hv, ht | ⟨e, ht⟩⟩ | ⟨-, ht⟩ | ht⟩ := pollOnce_cases w s <;>
    rw [ht] at h ⊢
  · exact hu.untouched
  · exact absurd rfl h
  · exact hu.untouched_trans (v := v) hv
  · exact hu.untouched
  · exact hu.untouched

/-- Settles O39: the first iteration and every later one are `pollOnce`, whose pulse comes with `:ok`. -/
theorem failedWriteNeverTouchesTheEnableLine : Obligations.FailedWriteNeverTouchesTheEnableLine := by
  rintro s t (⟨payload, mode, timeout, h⟩ | ⟨w, hw, h⟩) hresp
  · obtain ⟨-, -, rfl⟩ := exec_write h
    exact pollOnce_untouched hresp
  · rw [step, hw] at h
    cases h
    exact pollOnce_untouched hresp

/-! ## The trace and the draws (R6, R46, R47, R226) -/

/-- What a step may only add to: the events, and the draws of the environment, under a parameter record. -/
structure History where
  trace : List Event
  params : Params
  env : Env

def State.history (s : State) : History := ⟨s.trace, s.params, s.env⟩

/-- `q` has the events and the draws of `p` and perhaps more, under the same record and scripts. -/
structure Extends (p q : History) : Prop where
  trace : ∃ es, q.trace = p.trace ++ es
  params : q.params = p.params
  now : p.env.now ≤ q.env.now
  ioCount : p.env.ioCount ≤ q.env.ioCount
  rxCount : p.env.rxCount ≤ q.env.rxCount
  tickCount : p.env.tickCount ≤ q.env.tickCount
  ioScript : q.env.ioScript = p.env.ioScript
  rxScript : q.env.rxScript = p.env.rxScript
  tickScript : q.env.tickScript = p.env.tickScript

theorem Extends.refl (p : History) : Extends p p := by
  constructor <;> simp

theorem Extends.trans {p q r : History} (h : Extends p q) (h' : Extends q r) : Extends p r where
  trace := by
    obtain ⟨es, he⟩ := h.trace
    obtain ⟨fs, hf⟩ := h'.trace
    exact ⟨es ++ fs, by rw [hf, he, List.append_assoc]⟩
  params := h'.params.trans h.params
  now := h.now.trans h'.now
  ioCount := h.ioCount.trans h'.ioCount
  rxCount := h.rxCount.trans h'.rxCount
  tickCount := h.tickCount.trans h'.tickCount
  ioScript := h'.ioScript.trans h.ioScript
  rxScript := h'.rxScript.trans h.rxScript
  tickScript := h'.tickScript.trans h.tickScript

theorem BusOnly.extends {s t : State} (h : BusOnly s t) : Extends s.history t.history := by
  obtain ⟨es, htrace, -⟩ := h.trace
  obtain ⟨m, n, henv⟩ := h.env
  constructor <;> simp [State.history, htrace, h.params, henv]

theorem Extends.emit (es : List Event) (s : State) : Extends s.history (s.emit es).history :=
  { Extends.refl s.history with trace := ⟨es, rfl⟩ }

theorem Extends.readClock (s : State) : Extends s.history s.readClock.history :=
  { Extends.refl s.history with
    now := Nat.le_add_right _ _
    tickCount := Nat.le_succ _ }

/-- The pulse emits its two events, one after the other. -/
theorem Extends.pulseEnable (s : State) : Extends s.history (pulseEnable s).history :=
  (Extends.emit [.ceHigh] s).trans (Extends.emit [.ceLow] (s.emit [.ceHigh]))

theorem pollOnce_extends (w : PendingWrite) (s : State) : Extends s.history (pollOnce w s).history := by
  obtain ⟨u, hu, ⟨r, -, ht⟩ | ⟨v, hv, ht | ⟨e, ht⟩⟩ | ⟨-, ht⟩ | ht⟩ := pollOnce_cases w s <;> rw [ht]
  · exact hu.extends
  · exact (hu.extends.trans hv.extends).trans (.pulseEnable v)
  · exact hu.extends.trans hv.extends
  · exact hu.extends.trans (.readClock u)
  · exact hu.extends.trans (.readClock u)

theorem exec_extends {i : Instr} {s t : State} (h : exec i s = .next t) :
    Extends s.history t.history := by
  have hlow := Extends.emit [.ceLow] s
  cases i with
  | setAddressWidth n =>
    obtain ⟨-, -, -, -, u, hu, rfl | ⟨e, rfl⟩⟩ := exec_setAddressWidth h
    · exact hu.extends
    · exact hu.extends
  | openReadingPipe p a =>
    obtain ⟨-, -, -, u, r, rfl, hu | ⟨-, hu⟩⟩ := exec_openReadingPipe h
    · exact hu.extends
    · exact hu.extends
  | write payload mode timeout =>
    obtain ⟨-, -, rfl⟩ := exec_write h
    exact (Extends.readClock s).trans (pollOnce_extends _ (startWrite _ s))
  | init =>
    obtain ⟨-, -, u, ⟨hu, rfl⟩ | ⟨hu | hu, e, rfl⟩⟩ := exec_init h
    · exact hu.extends
    · exact hu.extends
    · exact hu.extends
  | startListening =>
    obtain ⟨-, -, u, ⟨hu, e, rfl⟩ | ⟨v, hv, hu, rfl | ⟨e, rfl⟩⟩⟩ := exec_startListening h
    · exact hu.extends
    · exact hv.extends.trans ((Extends.emit [.ceHigh] v).trans hu.extends)
    · exact hv.extends.trans ((Extends.emit [.ceHigh] v).trans hu.extends)
  | stopListening =>
    obtain ⟨-, -, u, hu, rfl | ⟨e, rfl⟩⟩ := exec_stopListening h
    · exact hlow.trans hu.extends
    · exact hlow.trans hu.extends
  | teardown =>
    obtain ⟨-, -, -, u, ⟨hu, rfl⟩ | ⟨hu | hu, e, rfl⟩⟩ := exec_teardown h
    · exact hlow.trans hu.extends
    · exact hlow.trans hu.extends
    · exact hlow.trans hu.extends
  | _ =>
    obtain ⟨-, u, r, hu, rfl⟩ := exec_plain rfl h
    exact hu.extends

theorem step_extends {s t : State} (h : step s = .next t) : Extends s.history t.history := by
  obtain ⟨w, -, rfl⟩ | ⟨-, -, rfl⟩ | ⟨rq, rest, i, -, -, -, hexec⟩ := step_cases h
  · exact pollOnce_extends w s
  · exact .refl _
  · exact exec_extends (s := { s with port := rest }) hexec

/-- Settles O58: a step is an iteration of the running `write`, nothing, or an instruction, and each only
extends the trace and the draws. -/
theorem stepOnlyExtendsTheTrace : Obligations.StepOnlyExtendsTheTrace := by
  intro s t h
  obtain ⟨htrace, hparams, hnow, hio, hrx, htick, hios, hrxs, hticks⟩ := step_extends h
  exact ⟨htrace, hparams, hnow, hio, hrx, htick, hios, hrxs, hticks⟩

end Sys2Proof.Machine
end

section
/-! PROOF. Instructions of one frame (40_transaction_engine.md): the bus commands (R100 to R111), the operations
that read or write one register or send one command, and what any of them leaves at a failed transport call. -/

namespace Sys2Proof.Machine

/-! ## Bus commands (R100 to R111) -/

/-- A bus command whose body is one frame and a response changes nothing else. -/
theorem busOp_framed {i : Instr} {s : State} {body : State → Ended Response} {m n : Nat}
    {es : List Event} {r : Response} (hs : Idle s) (hw : i.WellFormed)
    (hbody : body s.begin = .done r (s.begin.framed m n es)) :
    busOp i body s = .next (s.after m n es r) := by
  rw [busOp_idle hs hw, hbody, finish_done, respond_framed_begin hs]

/-- A piece of one writing frame, in an operation that answers nothing. -/
theorem returningNothing_framed {r : Ended Unit} {s : State} {m n : Nat} {es : List Event}
    (h : r = .done () (s.framed m n es)) : r.returningNothing = .done (.ok .nothing) (s.framed m n es) := by
  rw [h, Ended.returningNothing_done]

/-- A piece of one reading frame, in an operation that answers what was read. -/
theorem returning_framed {r : Ended (List Byte)} {s : State} {m n k : Nat} {es : List Event}
    (h : r = .done (s.env.rxBytes k) (s.framed m n es)) :
    r.returning .bytes = .done (.ok (.bytes (s.env.rxBytes k))) (s.framed m n es) := by
  rw [h, Ended.returning_done]

/-- Settles O12: each is one successful read of a register or command; with no byte asked for, one command. -/
theorem busReadCommandsEmitTheirFrame : Obligations.BusReadCommandsEmitTheirFrame := by
  intro s hs hio
  have h0 := hio 0 (by omega)
  have h1 := hio 1 (by omega)
  refine ⟨fun a n hn1 hn5 => ?_, fun n hn => ?_, ?_, ?_⟩
  · show execCmdRRegister a n s = _
    rw [← rxBytes_eq_answers]
    have hlen : n.toNat ≠ 0 := by omega
    exact busOp_framed hs (cmdRRegister_wellFormed_iff.mpr ⟨hn1, hn5⟩)
      (returning_framed (readReg_ok (s := s.begin) a hlen h0 h1))
  · show execCmdRRxPayload n s = _
    have hlen : n.toNat ≠ 0 := by simpa [BitVec.toNat_eq] using hn
    rw [← rxBytes_eq_answers]
    exact busOp_framed hs rfl (returning_framed (command_read_ok (s := s.begin) 0x61#8 hlen h0 h1))
  · show execCmdRRxPayload 0#8 s = _
    exact busOp_framed hs rfl (returning_framed (k := 0) (command_zero_ok (s := s.begin) 0x61#8 h0))
  · show execCmdRRxPlWid s = _
    exact busOp_framed hs rfl (returning_framed (k := 1)
      (command_read_ok (s := s.begin) s.params.cRRxPlWid Nat.one_ne_zero h0 h1))

/-- Settles O13: each is one successful register write or command with its data. -/
theorem busWriteCommandsEmitTheirFrame : Obligations.BusWriteCommandsEmitTheirFrame := by
  intro s data hs hio
  refine ⟨fun a h1 h5 => ?_, fun hlen => ⟨?_, ?_, fun p => ?_⟩⟩
  · show execCmdWRegister a data s = _
    exact busOp_framed hs (cmdWRegister_wellFormed_iff.mpr ⟨h1, h5⟩)
      (returningNothing_framed (writeReg_ok (s := s.begin) a data (ioOk_zero hio)))
  · show execCmdWTxPayload data s = _
    exact busOp_framed hs (ite_reason_eq_none.mpr hlen)
      (returningNothing_framed (sendOnly_ok (s := s.begin) _ data (ioOk_zero hio)))
  · show execCmdWTxPayloadNoack data s = _
    exact busOp_framed hs (ite_reason_eq_none.mpr hlen)
      (returningNothing_framed (sendOnly_ok (s := s.begin) _ data (ioOk_zero hio)))
  · show execCmdWAckPayload p data s = _
    exact busOp_framed hs (ite_reason_eq_none.mpr hlen)
      (returningNothing_framed (sendOnly_ok (s := s.begin) _ data (ioOk_zero hio)))

theorem busOp_sendOnly_ok {i : Instr} {s : State} (c : Byte) (tx : List Byte) (hs : Idle s)
    (hw : i.WellFormed) (hio : IoOk 1 s) {body : State → Ended Unit} (hbody : body s.begin = sendOnly c tx s.begin) :
    busOp i (fun u => (body u).returningNothing) s =
      .next (s.after 1 0 (busFrame (c :: tx) []) (.ok .nothing)) :=
  busOp_framed hs hw (returningNothing_framed (hbody.trans (sendOnly_ok (s := s.begin) c tx (ioOk_zero hio))))

/-- Settles O14: each is one successful command without host data. -/
theorem busPlainCommandsEmitTheirByte : Obligations.BusPlainCommandsEmitTheirByte := by
  intro s hs hio
  exact ⟨busOp_sendOnly_ok (i := .cmdFlushTx) 0xE1#8 [] hs rfl hio rfl,
    busOp_sendOnly_ok (i := .cmdFlushRx) 0xE2#8 [] hs rfl hio rfl,
    busOp_sendOnly_ok (i := .cmdReuseTxPl) s.params.cReuseTxPl [] hs rfl hio rfl,
    busOp_sendOnly_ok (i := .cmdActivate) 0x50#8 s.params.activateArg hs rfl hio rfl,
    busOp_sendOnly_ok (i := .cmdNop) 0xFF#8 [] hs rfl hio rfl⟩

/-! ## Host operations of one frame, and of none -/

/-- Settles O19: the body is one successful write of the byte to RF_CH. -/
theorem setChannelWritesTheByte : Obligations.SetChannelWritesTheByte := by
  intro s ch hs hio
  show execSetChannel ch s = _
  exact hostOp_framed hs rfl
    (returningNothing_framed (writeNamed_ok (s := s.begin) .rfCh [ch] (ioOk_zero hio)))

/-- Settles O27: the answer is taken from the handle, and nothing is emitted. -/
theorem addressWidthAnswersTheCache : Obligations.AddressWidthAnswersTheCache := by
  intro s hs
  show execAddressWidth s = _
  rw [execAddressWidth, hostOp_ready hs rfl, finish_done, respond_begin hs.1]
  rfl

/-- Settles O45: one read of FIFO_STATUS, answered by `fifoFlagsOf`. -/
theorem fifoFlagsAnswerFourBits : Obligations.FifoFlagsAnswerFourBits := by
  intro s hs hio
  exact hostOp_readByte_ok (i := .fifoFlags) .fifoStatus (fun v => .fifo (fifoFlagsOf s.params v)) hs rfl hio

/-- Settles O47: one read of RPD, compared with zero. -/
theorem receivedPowerAnswersNonzero : Obligations.ReceivedPowerAnswersNonzero := by
  intro s hs hio
  have hne : decide (answer 0 s ≠ 0#8) = (answer 0 s != 0#8) := Bool.eq_iff_iff.mpr (by simp)
  rw [hne]
  exact hostOp_readByte_ok (i := .receivedPower) .rpd (fun v => .boolean (v != 0#8)) hs rfl hio

/-- A field is a quotient and a remainder by powers of two (R8). -/
theorem fieldOf_eq_div_mod (v : Byte) (f : BitField) :
    fieldOf v f = v.toNat / 2 ^ f.lo.val % 2 ^ (f.hi.val - f.lo.val + 1) := by
  rw [fieldOf, Nat.shiftRight_eq_div_pow, Nat.and_two_pow_sub_one_eq_mod]

/-- Settles O48: one read of the observe register, answered by two fields, whose default places are the nibbles. -/
theorem observeTxAnswersTwoFields : Obligations.ObserveTxAnswersTwoFields := by
  refine ⟨fun s hs hio => ?_, fun v => ?_⟩
  · exact hostOp_readByte_ok (i := .observeTx) .observeTx
      (fun v => .counters (countersOf s.params v).1 (countersOf s.params v).2) hs rfl hio
  · have hv := v.isLt
    rw [fieldOf_eq_div_mod, fieldOf_eq_div_mod]
    constructor
    · show v.toNat / 16 % 16 = v.toNat / 16
      omega
    · show v.toNat / 1 % 16 = v.toNat % 16
      omega

/-- A host operation that answers one bit of FEATURE, whose position the record gives. -/
theorem hostOp_featureBit_ok {i : Instr} {s : State} (k : Params → BitNo) (hs : Ready s) (hw : i.WellFormed)
    (hio : IoOk 2 s) :
    hostOp i (fun u => ((readByte .feature u).map fun v => bitOf v (k u.params)).returning .boolean) s =
      .next (s.after 2 1 (readFrame 0x1D#5 [answer 0 s])
        (.ok (.boolean (bitOf (answer 0 s) (k s.params))))) := by
  refine hostOp_framed hs hw ?_
  rw [readByte_ok (s := s.begin) .feature (hio 0 (by omega)) (hio 1 (by omega)), Ended.map_done,
    Ended.returning_done]
  rfl

/-- Settles O49: both read FEATURE once and answer a bit of it. -/
theorem featureQueriesAnswerOneBit : Obligations.FeatureQueriesAnswerOneBit := by
  intro s hs hio
  exact ⟨hostOp_featureBit_ok (i := .dynamicPayloadsEnabled) Params.bEnDpl hs rfl hio,
    hostOp_featureBit_ok (i := .ackPayloadsEnabled) Params.bEnAckPay hs rfl hio⟩

theorem rxPNo_eq (v : Byte) : rxPNo v = v.toNat / 2 % 8 := fieldOf_eq_div_mod v ⟨3, 1⟩

/-- `data_available?` after a successful read of STATUS: an answer by RX_P_NO, or a refusal (R171). -/
theorem exec_dataAvailable_ok {s : State} (hs : Ready s) (hio : IoOk 2 s) :
    exec .dataAvailable s =
      if rxPNo (answer 0 s) = 7 then
        .next (s.after 2 1 (readFrame s.params.aStatus [answer 0 s]) (.ok .notAvailable))
      else if rxPNo (answer 0 s) ≤ 5 then
        .next (s.after 2 1 (readFrame s.params.aStatus [answer 0 s]) (.ok (.pipe (rxPNo (answer 0 s)))))
      else .refused .rxPNoUnused := by
  show execDataAvailable s = _
  rw [execDataAvailable, hostRefusal_none hs.1.1 hs.2 rfl]
  simp only [readByte_ok (s := s.begin) .status (hio 0 (by omega)) (hio 1 (by omega)),
    respond_framed_begin hs.1]
  rfl

/-- Settles O43: RX_P_NO is bits 3:1 of the byte read, and each of its values has one branch. -/
theorem dataAvailableAnswersThePipe : Obligations.DataAvailableAnswersThePipe := by
  intro s p hs hio hp
  rw [← rxPNo_eq] at hp
  rw [exec_dataAvailable_ok hs hio, ← hp]
  refine ⟨fun h5 => ?_, fun h7 => if_pos h7, fun h6 => ?_⟩
  · rw [if_neg (by omega), if_pos h5]
  · rw [if_neg (by omega), if_neg (by omega)]

/-- Settles O41: one frame of the base with the pipe, or a raise that precedes it; the reuse command alone. -/
theorem ackPayloadAndReuseSendOneFrame : Obligations.AckPayloadAndReuseSendOneFrame := by
  intro s p payload hs
  refine ⟨fun hlen hio => ?_, fun hlen => ?_, fun hio => ?_⟩
  · show execSetAckPayload p payload s = _
    refine hostOp_framed hs rfl ?_
    rw [if_neg (by omega)]
    exact returningNothing_framed (sendOnly_ok (s := s.begin) _ payload (ioOk_zero hio))
  · show execSetAckPayload p payload s = _
    rw [execSetAckPayload, hostOp_ready hs rfl, if_pos hlen, finish_raised]
    exact congrArg _ (respond_begin hs.1 _)
  · exact hostOp_sendNamed_ok (i := .reuseTxPayload) .reuseTxPl hs rfl hio

/-! ## A failed transport call (R92, R214) -/

/-- A raise passes what only replaces the value of a piece. -/
theorem Ended.map_of_raised {α β : Type} {r : Ended α} {e : Error} {t : State} (g : α → β)
    (h : r = .raised e t) : r.map g = .raised e t := by
  rw [h, Ended.map_raised]

/-- A raise ends a sequence (R218). -/
theorem Ended.andThen_of_raised {α β : Type} {r : Ended α} {e : Error} {t : State} (f : α → State → Ended β)
    (h : r = .raised e t) : r.andThen f = .raised e t := by
  rw [h, Ended.andThen_raised]

theorem hostOp_raised {i : Instr} {s t : State} {e : Error} {body : State → Ended Response} (hs : Ready s)
    (hw : i.WellFormed) (h : body s.begin = .raised e t) : hostOp i body s = .next (t.raise e) := by
  rw [hostOp_ready hs hw, h, finish_raised]

theorem busOp_raised {i : Instr} {s t : State} {e : Error} {body : State → Ended Response} (hs : Idle s)
    (hw : i.WellFormed) (h : body s.begin = .raised e t) : busOp i body s = .next (t.raise e) := by
  rw [busOp_idle hs hw, h, finish_raised]

/-- A raise out of a transaction is that of an operation which answers what was read. -/
theorem returning_of_raised {α : Type} {r : Ended α} {e : Error} {t : State} (v : α → Value)
    (h : r = .raised e t) : r.returning v = .raised e t :=
  Ended.map_of_raised _ h

/-- A raise out of a transaction is that of an operation which drops what was read and answers nothing. -/
theorem returningNothing_of_raised {α : Type} {r : Ended α} {e : Error} {t : State} (h : r = .raised e t) :
    (r.map fun _ => ()).returningNothing = .raised e t :=
  Ended.map_of_raised _ (Ended.map_of_raised _ h)

/-- A raise out of a transaction is that of an operation which takes a value out of the first byte. -/
theorem readByte_of_raised {id : RegisterId} {s t : State} {e : Error}
    (h : transact [regCommand 0x00#8 (addressOf s.params id)] 1 s = .raised e t) :
    readByte id s = .raised e t :=
  Ended.map_of_raised _ h

/-- A bus command ends where its frame is raised out of. -/
theorem exec_bus_raised {i : Instr} {s t : State} {tx : List Byte} {n : Nat} {e : Error} (hs : Idle s)
    (hsp : i.space = .bus) (hw : i.WellFormed) (hf : soleFrame s.params i = some (tx, n))
    (h : transact tx n s.begin = .raised e t) : exec i s = .next (t.raise e) := by
  unfold exec
  cases i with
  | cmdRRegister | cmdRRxPayload | cmdRRxPlWid =>
    cases hf
    exact busOp_raised hs hw (returning_of_raised _ h)
  | cmdWRegister | cmdWTxPayload | cmdWTxPayloadNoack | cmdWAckPayload | cmdFlushTx | cmdFlushRx
  | cmdReuseTxPl | cmdActivate | cmdNop =>
    cases hf
    exact busOp_raised hs hw (returningNothing_of_raised h)
  | _ => cases hsp

theorem exec_rfSetup_raised {d : DatarateArg} {p : PowerArg} {s t : State} {tx : List Byte} {n : Nat}
    {e : Error} (hs : Ready s) (hf : soleFrame s.params (.rfSetup d p) = some (tx, n))
    (h : transact tx n s.begin = .raised e t) : exec (.rfSetup d p) s = .next (t.raise e) := by
  show execRfSetup d p s = _
  cases hd : datarateSymbol d with
  | none => simp [soleFrame, hd] at hf
  | some dr =>
    cases hp : powerSymbol p with
    | none => simp [soleFrame, hd, hp] at hf
    | some pw =>
      simp only [soleFrame, hd, hp] at hf
      cases hf
      refine hostOp_raised hs rfl ?_
      simp only [hd, hp]
      exact returning_of_raised _ (Ended.map_of_raised _ h)

theorem exec_setAckPayload_raised {p : Pipe} {payload : List Byte} {s t : State} {tx : List Byte} {n : Nat}
    {e : Error} (hs : Ready s) (hf : soleFrame s.params (.setAckPayload p payload) = some (tx, n))
    (h : transact tx n s.begin = .raised e t) : exec (.setAckPayload p payload) s = .next (t.raise e) := by
  show execSetAckPayload p payload s = _
  by_cases hlen : payload.length ≤ 32
  · simp only [soleFrame, hlen, if_true] at hf
    cases hf
    refine hostOp_raised hs rfl ?_
    rw [if_neg (by omega)]
    exact returningNothing_of_raised h
  · simp [soleFrame, hlen] at hf

theorem exec_dataAvailable_raised {s t : State} {e : Error} (hs : Ready s)
    (h : readByte .status s.begin = .raised e t) : exec .dataAvailable s = .next (t.raise e) := by
  show execDataAvailable s = _
  rw [execDataAvailable, hostRefusal_none hs.1.1 hs.2 rfl]
  simp only [h]

/-- A host operation of one frame ends where its frame is raised out of. -/
theorem exec_host_raised {i : Instr} {s t : State} {tx : List Byte} {n : Nat} {e : Error} (hs : Ready s)
    (hsp : i.space = .host) (hw : i.WellFormed) (hf : soleFrame s.params i = some (tx, n))
    (h : transact tx n s.begin = .raised e t) : exec i s = .next (t.raise e) := by
  cases i with
  | rfSetup d p => exact exec_rfSetup_raised hs hf h
  | setAckPayload p payload => exact exec_setAckPayload_raised hs hf h
  | dataAvailable =>
    cases hf
    exact exec_dataAvailable_raised hs (readByte_of_raised h)
  | readRegister | sendCommand =>
    cases hf
    unfold exec
    exact hostOp_raised hs hw (returning_of_raised _ h)
  | channel | datarate | status | interruptFlags | fifoFlags | receivedPower | observeTx =>
    cases hf
    unfold exec
    exact hostOp_raised hs hw (returning_of_raised _ (readByte_of_raised h))
  | dynamicPayloadsEnabled | ackPayloadsEnabled =>
    cases hf
    unfold exec
    exact hostOp_raised hs hw (returning_of_raised _ (Ended.map_of_raised _ (readByte_of_raised h)))
  | writeRegister | setChannel | setRetries | flushTx | flushRx | reuseTxPayload | clearInterruptFlags =>
    cases hf
    unfold exec
    exact hostOp_raised hs hw (returningNothing_of_raised h)
  | setAddressWidth m =>
    cases hf
    unfold exec
    exact hostOp_raised hs hw
      (returning_of_raised _ (Ended.andThen_of_raised _ (Ended.map_of_raised _ h)))
  | crcLength | setCrcLength | addressWidth | openReadingPipe | closeReadingPipe | openWritingPipe | write
  | read | init | startListening | stopListening | teardown => cases hf
  | _ => cases hsp

/-- An instruction of one frame ends where its frame is raised out of, at either of its calls. -/
theorem exec_soleFrame_raised {i : Instr} {s : State} {tx : List Byte} {n m k report : Nat}
    {es : List Event} (hs : Idle s) (hlife : i.space = .bus ∨ s.life.initialised = true) (hw : i.WellFormed)
    (hf : soleFrame s.params i = some (tx, n))
    (h : transact tx n s.begin = .raised (.transportFailure report) (s.begin.framed m k es)) :
    exec i s = .next (s.after m k es (.transportFailure report)) := by
  rw [← respond_framed_begin hs]
  cases hsp : i.space with
  | bus => exact exec_bus_raised hs hsp hw hf h
  | host => exact exec_host_raised ⟨hs, hlife.resolve_left (by simp [hsp])⟩ hsp hw hf h

/-- Settles O18: the transaction of the one frame is raised out of at its first or at its second call. -/
theorem oneFrameInstructionsPropagateTransportFailure :
    Obligations.OneFrameInstructionsPropagateTransportFailure := by
  intro s i tx n sent report hs hlife hw hf
  exact ⟨fun h => exec_soleFrame_raised hs hlife hw hf (transact_write_fails (s := s.begin) tx n h),
    fun hn hio h => exec_soleFrame_raised hs hlife hw hf
      (transact_read_fails (s := s.begin) tx hn (ioOk_zero hio) h)⟩

end Sys2Proof.Machine
end

section
/-! PROOF. Operations of several frames that pulse nothing (41_configuration.md, 42_pipe_manager.md,
43_payload_io.md section 2): each runs its frames one after the other and answers. -/

namespace Sys2Proof.Machine

/-! ## CRC (R124, R125) -/

/-- Settles O23: the two reads succeed one after the other, whatever the first says. -/
theorem crcLengthReadsBothRegisters : Obligations.CrcLengthReadsBothRegisters := by
  intro s hs hio
  show execCrcLength s = _
  refine hostOp_framed hs rfl ?_
  rw [readByte_ok (s := s.begin) .config (hio 0 (by omega)) (hio 1 (by omega)), Ended.andThen_done,
    readByte_ok .enAa (hio 2 (by omega)) (hio 3 (by omega))]
  simp [addressOf, crcModeOf, bitOf, answer]

theorem bitOf_bitMask (j k : BitNo) : bitOf (bitMask j) k = decide (k = j) := by
  revert j k; decide

/-- The two CRC bits are cleared and then set by the mode; the other six are kept (R125). -/
theorem bitOf_withCrc {P : Params} (h : P.bEnCrc ≠ P.bCrco) (m : CrcMode) (v : Byte) (k : BitNo) :
    bitOf (withCrc P m v) k =
      if k = P.bEnCrc then decide (m ≠ .none)
      else if k = P.bCrco then decide (m = .crc16) else bitOf v k := by
  have hbits : bitOf (withCrc P m v) k =
      ((bitOf v k && !(decide (k = P.bEnCrc) || decide (k = P.bCrco))) ||
        (decide (k = P.bEnCrc) && decide (m ≠ .none)) || (decide (k = P.bCrco) && decide (m = .crc16))) := by
    cases m <;> simp [withCrc, bitOf_or, bitOf_and_not, bitOf_bitMask]
  rw [hbits]
  by_cases hen : k = P.bEnCrc
  · simp [hen, h]
  · by_cases hco : k = P.bCrco
    · simp [hco, h.symm]
    · simp [hen, hco]

/-- Settles O24: a read of CONFIG and the write of `withCrc` of what it read, whose bits are `bitOf_withCrc`. -/
theorem setCrcLengthRewritesConfig : Obligations.SetCrcLengthRewritesConfig := by
  refine ⟨fun s len hs hio => ?_, fun P m v k h => bitOf_withCrc h m v k, fun _ => rfl, rfl, rfl, rfl⟩
  show execSetCrcLength len s = _
  refine hostOp_framed hs rfl (returningNothing_framed ?_)
  rw [readByte_ok (s := s.begin) .config (hio 0 (by omega)) (hio 1 (by omega)), Ended.andThen_done,
    writeNamed_ok .config _ (hio 2 (by omega)), State.framed_framed]
  rfl

/-! ## Pipes (R140 to R142) -/

/-- Settles O31: one clear of the pipe's bit in EN_RXADDR. -/
theorem closeReadingPipeClearsItsBit : Obligations.CloseReadingPipeClearsItsBit := by
  intro s p hs hio
  show execCloseReadingPipe p s = _
  exact hostOp_framed hs rfl (returningNothing_framed
    (clearBits_ok (s := s.begin) .enRxaddr (pipeMask p) (hio 0 (by omega)) (hio 1 (by omega))
      (hio 2 (by omega))))

/-- A pipe operation whose address has the length it asks for is accepted in a ready block. -/
theorem addressRefusal_none {i : Instr} {s : State} {full : Bool} {a : List Byte} (hs : Ready s)
    (hw : i.WellFormed) (ha : full = true → a.length = s.dh.addressWidth) :
    addressRefusal i full a s = none := by
  cases full with
  | false => simp [addressRefusal, hostRefusal_none hs.1.1 hs.2 hw]
  | true => simp [addressRefusal, hostRefusal_none hs.1.1 hs.2 hw, ha rfl]

/-- Settles O32: three writes, one after the other, and no cache. -/
theorem openWritingPipeMirrorsTheAddress : Obligations.OpenWritingPipeMirrorsTheAddress := by
  intro s a hs h2 h5 ha hio
  show execOpenWritingPipe a s = _
  rw [execOpenWritingPipe, addressRefusal_none hs (openWritingPipe_wellFormed_iff.mpr ⟨h2, h5⟩) fun _ => ha,
    accept_none, writeNamed_ok (s := s.begin) (.rxAddrP 0) a (hio 0 (by omega)), Ended.andThen_done,
    writeNamed_ok .txAddr a (hio 1 (by omega)), Ended.andThen_done, writePayloadWidth,
    writeNamed_ok _ _ (hio 2 (by omega)), Ended.returningNothing_done, State.framed_framed,
    State.framed_framed, finish_done, respond_framed_begin hs.1, ← List.append_assoc]
  rfl

/-- The body of `open_reading_pipe`, run in a state that accepts it. -/
def openPipe (p : Pipe) (a : List Byte) (s : State) : Ended Unit :=
  (writeNamed (.rxAddrP p) (pipeAddressBytes p a) s).andThen fun _ t =>
    (writePayloadWidth p (cachePipe0 p a t)).andThen fun _ => setBits .enRxaddr (pipeMask p)

theorem exec_openReadingPipe_eq {s : State} {p : Pipe} {a : List Byte} (hs : Ready s) (h1 : 1 ≤ a.length)
    (h5 : a.length ≤ 5) (ha : p.val ≤ 1 → a.length = s.dh.addressWidth) :
    exec (.openReadingPipe p a) s = .next (finish (openPipe p a s.begin).returningNothing) := by
  show execOpenReadingPipe p a s = _
  rw [execOpenReadingPipe, addressRefusal_none hs (openReadingPipe_wellFormed_iff.mpr ⟨h1, h5⟩)
    fun hp => ha (of_decide_eq_true hp)]
  rfl

/-- The cache of pipe 0 is a matter of the handle alone, and the frames after it do not see it. -/
theorem cachePipe0_eq (p : Pipe) (a : List Byte) (s : State) :
    cachePipe0 p a s = s.withHandle { s.dh with
      pipe0ReadingAddress := if p.val = 0 then some a else s.dh.pipe0ReadingAddress } := by
  unfold cachePipe0
  split <;> rfl

/-- `open_reading_pipe` with a succeeding transport: four frames, and the cache of pipe 0 (R140). -/
theorem openPipe_ok {s : State} (p : Pipe) (a : List Byte) (hio : IoOk 5 s) :
    openPipe p a s = .done () ((s.framed 5 1
      (writeFrame s.params.aRxAddrP[p] (pipeAddressBytes p a) ++
        writeFrame s.params.aRxPwP[p] [BitVec.ofNat 8 s.dh.staticPayloadSize] ++
        readFrame s.params.aEnRxaddr [answer 0 s] ++
        writeFrame s.params.aEnRxaddr [answer 0 s ||| 1#8 <<< p.val])).withHandle
      { s.dh with pipe0ReadingAddress := if p.val = 0 then some a else s.dh.pipe0ReadingAddress }) := by
  rw [openPipe, writeNamed_ok _ _ (hio 0 (by omega)), Ended.andThen_done, cachePipe0_eq, writePayloadWidth,
    writeNamed_ok _ _ (hio 1 (by omega)), Ended.andThen_done,
    setBits_ok _ _ (hio 2 (by omega)) (hio 3 (by omega)) (hio 4 (by omega))]
  simp [State.framed, State.withHandle, addressOf, answer, pipeMask]

/-- What is left after an operation of an idle block that emitted frames and set the handle. -/
theorem respond_withHandle_framed_begin {s : State} (hs : Idle s) (m n : Nat) (es : List Event)
    (d : DeviceHandle) (r : Response) :
    ((s.begin.framed m n es).withHandle d).respond r = { s.after m n es r with dh := d } := by
  rw [← respond_framed_begin hs]
  rfl

theorem exec_openReadingPipe_ok {s : State} {p : Pipe} {a : List Byte} (hs : Ready s) (h1 : 1 ≤ a.length)
    (h5 : a.length ≤ 5) (ha : p.val ≤ 1 → a.length = s.dh.addressWidth) (hio : IoOk 5 s) :
    exec (.openReadingPipe p a) s = .next { s.after 5 1
      (writeFrame s.params.aRxAddrP[p] (pipeAddressBytes p a) ++
        writeFrame s.params.aRxPwP[p] [BitVec.ofNat 8 s.dh.staticPayloadSize] ++
        readFrame s.params.aEnRxaddr [answer 0 s] ++
        writeFrame s.params.aEnRxaddr [answer 0 s ||| 1#8 <<< p.val]) (.ok .nothing) with
      dh := { s.dh with
        pipe0ReadingAddress := if p.val = 0 then some a else s.dh.pipe0ReadingAddress } } := by
  rw [exec_openReadingPipe_eq hs h1 h5 ha, openPipe_ok (s := s.begin) p a hio, Ended.returningNothing_done,
    finish_done, respond_withHandle_framed_begin hs.1]
  rfl

/-- Settles O28: for pipes 0 and 1 the bytes written are the whole address. -/
theorem openReadingPipeFullAddress : Obligations.OpenReadingPipeFullAddress := by
  intro s p a hs hp h1 h5 ha hio
  rw [exec_openReadingPipe_ok hs h1 h5 (fun _ => ha) hio, pipeAddressBytes, if_pos hp]

/-- Settles O29: for pipes 2 to 5 they are the first byte, and no address is cached. -/
theorem openReadingPipeFirstByte : Obligations.OpenReadingPipeFirstByte := by
  intro s p a0 rest hs hp hlen hio
  have h5 : (a0 :: rest).length ≤ 5 := Nat.succ_le_succ hlen
  rw [exec_openReadingPipe_ok hs (by simp) h5 (by omega) hio, pipeAddressBytes, if_neg (by omega),
    if_neg (by omega)]
  rfl

/-- Settles O30: the first write is raised out of before the cache and everything after it. -/
theorem openReadingPipeFailureKeepsTheCache : Obligations.OpenReadingPipeFailureKeepsTheCache := by
  intro s p a sent report hs hp h1 h5 ha hfail
  rw [exec_openReadingPipe_eq hs h1 h5 (fun _ => ha), openPipe, pipeAddressBytes, if_pos hp,
    writeNamed_fails (s := s.begin) _ _ hfail, Ended.andThen_raised, Ended.returningNothing_raised,
    finish_raised, ← respond_framed_begin hs.1]
  rfl

/-! ## `read` (R155) -/

/-- `read` once its length is known: the payload frame and the clear of the flags. -/
def readPayload (n : Nat) (s : State) : Ended Response :=
  (command (opcodeOf s.params .rRxPayload) [] n s).andThen fun data t =>
    (clearInterrupts t).returning fun _ => .bytes data

/-- A payload of no bytes is the command byte alone. -/
theorem readPayload_zero_ok {s : State} (hio : IoOk 2 s) :
    readPayload 0 s = .done (.ok (.bytes [])) (s.framed 2 0
      (busFrame [0x61#8] [] ++ writeFrame s.params.aStatus [0x70#8])) := by
  rw [readPayload, command_zero_ok _ (hio 0 (by omega)), Ended.andThen_done,
    clearInterrupts_ok (hio 1 (by omega)), State.framed_framed]
  rfl

theorem readPayload_ok {s : State} {n : Nat} (hn : n ≠ 0) (hio : IoOk 3 s) :
    readPayload n s = .done (.ok (.bytes (answers 0 n s))) (s.framed 3 n
      (busFrame [0x61#8] (answers 0 n s) ++ writeFrame s.params.aStatus [0x70#8])) := by
  rw [readPayload, command_read_ok _ hn (hio 0 (by omega)) (hio 1 (by omega)), Ended.andThen_done,
    clearInterrupts_ok (hio 2 (by omega)), State.framed_framed, rxBytes_eq_answers]
  rfl

theorem readDynamicPayloads_ok {s : State} (hio : IoOk 2 s) :
    readDynamicPayloads s = .done (bitOf (answer 0 s) s.params.bEnDpl)
      (s.framed 2 1 (readFrame 0x1D#5 [answer 0 s])) := by
  rw [readDynamicPayloads, readByte_ok .feature (hio 0 (by omega)) (hio 1 (by omega))]
  rfl

theorem readLength_static_ok {s : State} (hio : IoOk 2 s) (hb : bitOf (answer 0 s) s.params.bEnDpl = false) :
    readLength s = .done s.dh.staticPayloadSize (s.framed 2 1 (readFrame 0x1D#5 [answer 0 s])) := by
  rw [readLength, readDynamicPayloads_ok hio, Ended.andThen_done, hb]
  rfl

theorem readLength_dynamic_ok {s : State} (hio : IoOk 4 s) (hb : bitOf (answer 0 s) s.params.bEnDpl = true) :
    readLength s = .done (answer 1 s).toNat (s.framed 4 2
      (readFrame 0x1D#5 [answer 0 s] ++ busFrame [s.params.cRRxPlWid] [answer 1 s])) := by
  rw [readLength, readDynamicPayloads_ok fun k hk => hio k (by omega), Ended.andThen_done, hb, if_pos rfl,
    command_read_ok _ Nat.one_ne_zero (hio 2 (by omega)) (hio 3 (by omega)), State.framed_framed]
  rfl

/-- `read` is its length and then its payload. -/
theorem exec_read_framed {s : State} {n m k m' k' : Nat} {es es' : List Event} {r : Response} (hs : Ready s)
    (hlength : readLength s.begin = .done n (s.begin.framed m k es))
    (hpayload : readPayload n (s.begin.framed m k es) =
      .done r ((s.begin.framed m k es).framed m' k' es')) :
    exec .read s = .next (s.after (m + m') (k + k') (es ++ es') r) := by
  show execRead s = _
  refine hostOp_framed hs rfl ?_
  rw [hlength, Ended.andThen_done, ← State.framed_framed]
  exact hpayload

/-- The bytes a later piece is answered are those after what was read before it. -/
theorem answers_framed (j n m k : Nat) (es : List Event) (s : State) :
    answers j n (s.framed m k es) = answers (k + j) n s := by
  simp [answers, answer, Nat.add_assoc]

/-- After `m` of `m + k` calls, `k` are left. -/
theorem ioOk_framed {m k n : Nat} {es : List Event} {s : State} (h : IoOk (m + k) s) :
    IoOk k (s.framed m n es) :=
  ((ioOk_add rfl).mp h).2

/-- Settles O40: the length by the mode that FEATURE says, then the payload of that length. -/
theorem readExtractsOnePayload : Obligations.ReadExtractsOnePayload := by
  intro s hs
  refine ⟨fun hio hb hsize => ?_, fun hio hb hw => ?_, fun hio hb hw => ?_⟩
  · have hlength := readLength_static_ok (s := s.begin) (fun k hk => hio k (by omega)) hb
    have hpayload := readPayload_ok hsize
      (ioOk_framed (m := 2) (n := 1) (es := readFrame 0x1D#5 [answer 0 s]) (s := s.begin) hio)
    rw [answers_framed] at hpayload
    rw [exec_read_framed hs hlength hpayload]
    simp only [List.append_assoc]
    rfl
  · have hlen : (answer 1 s).toNat ≠ 0 := by simpa [BitVec.toNat_eq] using hw
    have hlength := readLength_dynamic_ok (s := s.begin) (fun k hk => hio k (by omega)) hb
    have hpayload := readPayload_ok hlen (ioOk_framed (m := 4) (n := 2) (es :=
      readFrame 0x1D#5 [answer 0 s] ++ busFrame [s.params.cRRxPlWid] [answer 1 s]) (s := s.begin) hio)
    rw [answers_framed] at hpayload
    rw [exec_read_framed hs hlength hpayload]
    simp only [List.append_assoc]
    rfl
  · have hlength := readLength_dynamic_ok (s := s.begin) (fun k hk => hio k (by omega)) hb
    have hzero : answer 1 s.begin = 0#8 := hw
    rw [hzero] at hlength
    have hpayload := readPayload_zero_ok (ioOk_framed (m := 4) (n := 2) (es :=
      readFrame 0x1D#5 [answer 0 s] ++ busFrame [s.params.cRRxPlWid] [0#8]) (s := s.begin) hio)
    rw [exec_read_framed hs hlength hpayload, hw]
    simp only [List.append_assoc]
    rfl

end Sys2Proof.Machine
end

section
/-! PROOF. Transmit (43_payload_io.md section 1): one iteration of the polling loop by what the transport and the
clock answer, `write` as the iteration it starts with, and the loop's end under R226's fairness. -/

namespace Sys2Proof.Machine

/-! ## Sequencing within a `write` -/

theorem framed_setTxFsm (f : TxFsm) (m n : Nat) (es : List Event) (s : State) :
    (s.setTxFsm f).framed m n es = (s.framed m n es).setTxFsm f := rfl

@[simp] theorem respond_setTxFsm (f : TxFsm) (r : Response) (s : State) :
    (s.setTxFsm f).respond r = s.respond r := rfl

theorem State.raise_eq (e : Error) (s : State) : s.raise e = s.respond e.response := rfl

/-- A `write` that ends after its pulse is in STANDBY with the enable line low (R154). -/
theorem respond_pulse_polling {w : PendingWrite} {s : State} (hs : Polling w s) (m n : Nat)
    (es : List Event) (r : Response) (f : TxFsm) :
    (pulseEnable ((s.framed m n es).setTxFsm f)).respond r =
      { s.ended m n (es ++ [.ceHigh, .ceLow]) r with ce := .low, life := .standby } := by
  rw [← respond_framed_polling hs]
  simp [pulseEnable, pulseHigh, pulseLow, State.raiseEnable, State.dropEnable, State.setLife, State.emit,
    State.setTxFsm, State.framed, State.respond]

/-! ## The payload frame (R152, R153) -/

theorem payloadBytes_eq (mode : AckMode) (payload : List Byte) (f : Byte) (s : State) :
    payloadBytes mode payload f s = opcodeOf s.params (payloadCommand mode) ::
      payloadData (bitOf f s.params.bEnDpl) payload s := by
  cases mode <;> rfl

theorem sizeLimit_eq (f : Byte) (s : State) : sizeLimit f s = payloadLimit (bitOf f s.params.bEnDpl) s := rfl

theorem validateAndPad_fits {s : State} {payload : List Byte} (hio : IoOk 2 s)
    (hlen : payload.length ≤ sizeLimit (answer 0 s) s) :
    validateAndPad payload s = .done (payloadData (bitOf (answer 0 s) s.params.bEnDpl) payload s)
      (s.framed 2 1 (readFrame 0x1D#5 [answer 0 s])) := by
  rw [sizeLimit_eq] at hlen
  rw [validateAndPad, readDynamicPayloads_ok hio, Ended.andThen_done]
  exact if_neg (Nat.not_lt.mpr hlen)

theorem validateAndPad_oversized {s : State} {payload : List Byte} (hio : IoOk 2 s)
    (hlen : sizeLimit (answer 0 s) s < payload.length) :
    validateAndPad payload s = .raised (.oversizedPayload payload.length (sizeLimit (answer 0 s) s))
      (s.framed 2 1 (readFrame 0x1D#5 [answer 0 s])) := by
  rw [validateAndPad, readDynamicPayloads_ok hio, Ended.andThen_done]
  exact if_pos hlen

/-- A payload that fits is sent, and the pulse follows. -/
theorem transmit_ok {w : PendingWrite} {s : State} (hio : IoOk 3 s)
    (hlen : w.payload.length ≤ sizeLimit (answer 0 s) s) :
    transmit w s = .done (.ok .okSymbol) (pulseEnable ((s.framed 3 1
      (readFrame 0x1D#5 [answer 0 s] ++ busFrame (payloadBytes w.ackMode w.payload (answer 0 s) s) [])).setTxFsm
        .pulseEnable)) := by
  rw [transmit, validateAndPad_fits (s := s.setTxFsm .write) (fun k hk => hio k (by omega)) hlen,
    Ended.andThen_done, sendOnly_ok _ _ (hio 2 (by omega)), Ended.andThen_done, State.framed_framed,
    payloadBytes_eq]
  rfl

theorem transmit_oversized {w : PendingWrite} {s : State} (hio : IoOk 2 s)
    (hlen : sizeLimit (answer 0 s) s < w.payload.length) :
    transmit w s = .raised (.oversizedPayload w.payload.length (sizeLimit (answer 0 s) s))
      ((s.framed 2 1 (readFrame 0x1D#5 [answer 0 s])).setTxFsm .write) := by
  rw [transmit, validateAndPad_oversized (s := s.setTxFsm .write) hio hlen, Ended.andThen_raised]
  rfl

/-- A FEATURE read that is raised out of ends the `write` there. -/
theorem transmit_feature_raised {w : PendingWrite} {s t : State} {e : Error}
    (h : readByte .feature (s.setTxFsm .write) = .raised e t) : transmit w s = .raised e t :=
  Ended.andThen_of_raised _ (Ended.andThen_of_raised _ (Ended.map_of_raised _ h))

theorem transmit_payload_fails {w : PendingWrite} {s : State} {sent report : Nat} (hio : IoOk 2 s)
    (hlen : w.payload.length ≤ sizeLimit (answer 0 s) s)
    (hfail : s.env.io (s.env.ioCount + 2) = .fail sent report) :
    transmit w s = .raised (.transportFailure report) ((s.framed 3 1
      (readFrame 0x1D#5 [answer 0 s] ++
        brokenFrame (payloadBytes w.ackMode w.payload (answer 0 s) s) sent)).setTxFsm .write) := by
  rw [transmit, validateAndPad_fits (s := s.setTxFsm .write) hio hlen, Ended.andThen_done,
    sendOnly_fails _ _ hfail, Ended.andThen_raised, State.framed_framed, payloadBytes_eq]
  rfl

/-! ## One iteration (R151) -/

/-- `s` after a read of STATUS. -/
def statusRead (s : State) : State := s.framed 2 1 (readFrame s.params.aStatus [answer 0 s])

theorem readStatus_ok {s : State} (hio : IoOk 2 s) : readByte .status s = .done (answer 0 s) (statusRead s) :=
  readByte_ok .status (hio 0 (by omega)) (hio 1 (by omega))

theorem pollOnce_room {w : PendingWrite} {s : State} (hio : IoOk 2 s) (hroom : bitOf (answer 0 s) 0 = false) :
    pollOnce w s = finish (transmit w (statusRead s)) := by
  simp [pollOnce, readStatus_ok hio, bTxFull, hroom]

theorem pollOnce_maxRt {w : PendingWrite} {s : State} (hio : IoOk 2 s) (hfull : bitOf (answer 0 s) 0 = true)
    (hmax : bitOf (answer 0 s) 4 = true) :
    pollOnce w s = finish (reportMaxRetransmits (statusRead s)) := by
  simp [pollOnce, readStatus_ok hio, bTxFull, bMaxRt, hfull, hmax]

theorem nowAfter_one (s : State) : nowAfter 1 s = s.env.ticked.now := by
  simp [nowAfter]

theorem pollOnce_full {w : PendingWrite} {s : State} (hio : IoOk 2 s) (hfull : FullNoMaxRt (answer 0 s)) :
    pollOnce w s = if w.timeout < nowAfter 1 s - w.t0 then (statusRead s).readClock.respond .transmitTimeout
      else (statusRead s).readClock := by
  rw [nowAfter_one]
  simp [pollOnce, readStatus_ok hio, bTxFull, bMaxRt, hfull.1, hfull.2]
  rfl

theorem pollOnce_status_raised {w : PendingWrite} {s t : State} {e : Error}
    (h : readByte .status s = .raised e t) : pollOnce w s = t.raise e := by
  simp only [pollOnce, h]

theorem step_running {w : PendingWrite} {s : State} (hw : s.running = some w) :
    step s = .next (pollOnce w s) := by
  simp only [step, hw]

/-- FEATURE has an address of its own, so its read command is one byte under every record (R59, R62). -/
theorem featureReadCommand_eq (P : Params) : 0x00#8 ||| (addressOf P .feature).setWidth 8 = 0x1D#8 := by
  show 0x00#8 ||| (0x1D#5).setWidth 8 = 0x1D#8
  decide

/-! ## Each exit of a polling step -/

section Exits
variable {w : PendingWrite} {s : State} {sent report : Nat} (hs : Polling w s)
include hs

/-- The state of a `write` that goes on polling (log entry 8). -/
theorem step_pollsOn (hio : IoOk 2 s) (hfull : FullNoMaxRt (answer 0 s))
    (htime : nowAfter 1 s - w.t0 ≤ w.timeout) :
    step s = .next { s with trace := s.trace ++ readFrame s.params.aStatus [answer 0 s]
                            env := (s.env.took 2 1).ticked } := by
  obtain ⟨hw, hf, hc⟩ := hs
  rw [step_running hw, pollOnce_full hio hfull, if_neg (Nat.not_lt.mpr htime)]
  simp [statusRead, State.framed, State.readClock, ← hc]

theorem step_timesOut (hio : IoOk 2 s) (hfull : FullNoMaxRt (answer 0 s))
    (htime : w.timeout < nowAfter 1 s - w.t0) :
    step s = .next (s.readClock.ended 2 1 (readFrame s.params.aStatus [answer 0 s]) .transmitTimeout) := by
  rw [step_running hs.1, pollOnce_full hio hfull, if_pos htime]
  have hpolling : Polling w s.readClock := hs
  exact congrArg _ (respond_framed_polling hpolling 2 1 _ _)

theorem step_reportsMaxRt (hio : IoOk 3 s) (hfull : bitOf (answer 0 s) 0 = true)
    (hmax : bitOf (answer 0 s) 4 = true) :
    step s = .next (s.ended 3 1
      (readFrame s.params.aStatus [answer 0 s] ++ writeFrame s.params.aStatus [0x10#8])
      .maxRetransmitsReached) := by
  rw [step_running hs.1, pollOnce_maxRt (fun k hk => hio k (by omega)) hfull hmax, reportMaxRetransmits,
    writeNamed_ok .status _ (hio 2 (by omega)), clearMaxRt_eq, Ended.map_done, finish_done, statusRead,
    State.framed_framed, respond_framed_polling hs]
  rfl

theorem step_sends (hio : IoOk 5 s) (hroom : bitOf (answer 0 s) 0 = false)
    (hlen : w.payload.length ≤ sizeLimit (answer 1 s) s) :
    step s = .next { s.ended 5 2
      (readFrame s.params.aStatus [answer 0 s] ++ readFrame 0x1D#5 [answer 1 s] ++
        busFrame (payloadBytes w.ackMode w.payload (answer 1 s) s) [] ++ [.ceHigh, .ceLow])
      (.ok .okSymbol) with ce := .low, life := .standby } := by
  rw [step_running hs.1, pollOnce_room (fun k hk => hio k (by omega)) hroom,
    transmit_ok (s := statusRead s) (ioOk_framed hio) hlen, finish_done, statusRead, State.framed_framed,
    respond_pulse_polling hs, List.append_assoc (readFrame s.params.aStatus [answer 0 s])]
  rfl

theorem step_raisesOversized (hio : IoOk 4 s) (hroom : bitOf (answer 0 s) 0 = false)
    (hlen : sizeLimit (answer 1 s) s < w.payload.length) :
    step s = .next (s.ended 4 2
      (readFrame s.params.aStatus [answer 0 s] ++ readFrame 0x1D#5 [answer 1 s])
      (.oversizedPayload w.payload.length (sizeLimit (answer 1 s) s))) := by
  rw [step_running hs.1, pollOnce_room (fun k hk => hio k (by omega)) hroom,
    transmit_oversized (s := statusRead s) (ioOk_framed hio) hlen, finish_raised, State.raise_eq,
    respond_setTxFsm, statusRead, State.framed_framed, respond_framed_polling hs]
  rfl

theorem step_status_write_fails (hfail : s.env.io s.env.ioCount = .fail sent report) :
    step s = .next (s.ended 1 0 (brokenFrame [0x00#8 ||| s.params.aStatus.setWidth 8] sent)
      (.transportFailure report)) := by
  rw [step_running hs.1, pollOnce_status_raised (readByte_write_fails .status hfail), State.raise_eq,
    respond_framed_polling hs]
  rfl

theorem step_status_read_fails (hio : IoOk 1 s) (hfail : s.env.io (s.env.ioCount + 1) = .fail sent report) :
    step s = .next (s.ended 2 0 (readFrame s.params.aStatus []) (.transportFailure report)) := by
  rw [step_running hs.1, pollOnce_status_raised (readByte_fails .status (ioOk_zero hio) hfail),
    State.raise_eq, respond_framed_polling hs]
  rfl

theorem step_maxRt_clear_fails (hio : IoOk 2 s) (hfail : s.env.io (s.env.ioCount + 2) = .fail sent report)
    (hfull : bitOf (answer 0 s) 0 = true) (hmax : bitOf (answer 0 s) 4 = true) :
    step s = .next (s.ended 3 1
      (readFrame s.params.aStatus [answer 0 s] ++
        brokenFrame [0x20#8 ||| s.params.aStatus.setWidth 8, 0x10#8] sent) (.transportFailure report)) := by
  rw [step_running hs.1, pollOnce_maxRt hio hfull hmax, reportMaxRetransmits,
    writeNamed_fails (s := statusRead s) .status _ hfail, clearMaxRt_eq, Ended.map_raised, finish_raised,
    State.raise_eq, statusRead, State.framed_framed, respond_framed_polling hs]
  rfl

theorem step_feature_write_fails (hio : IoOk 2 s)
    (hfail : s.env.io (s.env.ioCount + 2) = .fail sent report) (hroom : bitOf (answer 0 s) 0 = false) :
    step s = .next (s.ended 3 1
      (readFrame s.params.aStatus [answer 0 s] ++ brokenFrame [0x1D#8] sent) (.transportFailure report)) := by
  rw [step_running hs.1, pollOnce_room hio hroom,
    transmit_feature_raised (readByte_write_fails (s := (statusRead s).setTxFsm .write) .feature hfail),
    finish_raised, State.raise_eq, framed_setTxFsm, respond_setTxFsm, statusRead, State.framed_framed,
    respond_framed_polling hs, featureReadCommand_eq]
  rfl

theorem step_feature_read_fails (hio : IoOk 3 s)
    (hfail : s.env.io (s.env.ioCount + 3) = .fail sent report) (hroom : bitOf (answer 0 s) 0 = false) :
    step s = .next (s.ended 4 1
      (readFrame s.params.aStatus [answer 0 s] ++ readFrame 0x1D#5 []) (.transportFailure report)) := by
  rw [step_running hs.1, pollOnce_room (fun k hk => hio k (by omega)) hroom,
    transmit_feature_raised
      (readByte_fails (s := (statusRead s).setTxFsm .write) .feature (hio 2 (by omega)) hfail),
    finish_raised, State.raise_eq, framed_setTxFsm, respond_setTxFsm, statusRead, State.framed_framed,
    respond_framed_polling hs]
  rfl

theorem step_payload_fails (hio : IoOk 4 s) (hfail : s.env.io (s.env.ioCount + 4) = .fail sent report)
    (hroom : bitOf (answer 0 s) 0 = false) (hlen : w.payload.length ≤ sizeLimit (answer 1 s) s) :
    step s = .next (s.ended 5 2
      (readFrame s.params.aStatus [answer 0 s] ++ readFrame 0x1D#5 [answer 1 s] ++
        brokenFrame (payloadBytes w.ackMode w.payload (answer 1 s) s) sent) (.transportFailure report)) := by
  rw [step_running hs.1, pollOnce_room (fun k hk => hio k (by omega)) hroom,
    transmit_payload_fails (s := statusRead s) (ioOk_framed hio) hlen hfail, finish_raised, State.raise_eq,
    respond_setTxFsm, statusRead, State.framed_framed, respond_framed_polling hs, ← List.append_assoc]
  rfl

end Exits

/-! ## `write` as the polling step it starts with (R150) -/

/-- The state in which the first iteration of a `write` runs is a polling one. -/
theorem startWrite_polling {w : PendingWrite} {s : State} (hs : Ready s) : Polling w (startWrite w s) :=
  ⟨rfl, rfl, hs.1.2.2⟩

theorem exec_write_eq_step {s : State} (payload : List Byte) (mode : AckMode) (timeout : Option Nat)
    (hs : Ready s) :
    exec (.write payload mode timeout) s = step (startWrite (pendingWrite payload mode timeout s) s) := by
  show execWrite payload mode timeout s = _
  rw [execWrite, hostRefusal_none hs.1.1 hs.2 rfl, step_running rfl]

/-- Settles O37: each clause is the exit of a polling step it names. -/
theorem pollingStepTestsInOrder : Obligations.PollingStepTestsInOrder := by
  refine ⟨fun s payload mode timeout hs => exec_write_eq_step payload mode timeout hs,
    fun s w hs => ⟨step_pollsOn hs, step_timesOut hs, step_reportsMaxRt hs, step_sends hs,
      step_raisesOversized hs⟩, fun s w sent report hs => ⟨step_status_write_fails hs,
      step_status_read_fails hs, fun hio hfail => ⟨step_maxRt_clear_fails hs hio hfail,
        step_feature_write_fails hs hio hfail⟩, step_feature_read_fails hs, step_payload_fails hs⟩⟩

/-- A `write` that ends in its first iteration leaves an idle block, as any operation (R219). -/
theorem startWrite_ended {w : PendingWrite} {s : State} (hs : Ready s) (m n : Nat) (es : List Event)
    (r : Response) : (startWrite w s).ended m n es r = s.readClock.after m n es r := by
  obtain ⟨⟨hr, hf, -⟩, -⟩ := hs
  cases s
  simp_all [startWrite, State.ended, State.after, State.begin, State.readClock, State.setTxFsm,
    State.setRunning]

/-- Settles O33: the first iteration finds room, and the payload fits. -/
theorem writeSendsAPayloadThatFits : Obligations.WriteSendsAPayloadThatFits := by
  intro s payload mode timeout hs hio hroom hdynamic hstatic
  have hlen : payload.length ≤ sizeLimit (answer 1 s) s := by
    cases hb : bitOf (answer 1 s) s.params.bEnDpl with
    | true => simpa [sizeLimit, hb] using hdynamic hb
    | false => simpa [sizeLimit, hb] using hstatic hb
  rw [exec_write_eq_step payload mode timeout hs,
    step_sends (startWrite_polling hs) hio hroom hlen, startWrite_ended hs]
  rfl

/-- Settles O34: the first iteration finds room, and the payload is above the limit of its mode. -/
theorem writeRaisesOversizedPayload : Obligations.WriteRaisesOversizedPayload := by
  intro s payload mode timeout hs hio hroom
  have hraise {limit : Nat} (hlimit : sizeLimit (answer 1 s) s = limit) (hlen : limit < payload.length) :
      exec (.write payload mode timeout) s = .next (s.readClock.after 4 2
        (readFrame s.params.aStatus [answer 0 s] ++ readFrame 0x1D#5 [answer 1 s])
        (.oversizedPayload payload.length limit)) := by
    subst hlimit
    rw [exec_write_eq_step payload mode timeout hs,
      step_raisesOversized (w := pendingWrite payload mode timeout s) (startWrite_polling hs) hio hroom hlen,
      startWrite_ended hs]
    rfl
  exact ⟨fun hb => hraise (by simp [sizeLimit, hb]), fun hb => hraise (by simp [sizeLimit, hb])⟩

/-- Settles O35: the first iteration finds no room and MAX_RT set. -/
theorem writeReportsMaxRetransmits : Obligations.WriteReportsMaxRetransmits := by
  intro s payload mode timeout hs hio hfull hmax
  rw [exec_write_eq_step payload mode timeout hs,
    step_reportsMaxRt (startWrite_polling hs) hio hfull hmax, startWrite_ended hs]
  rfl

/-- The time the first iteration has taken is the second advance of the clock (R151, R226). -/
theorem startWrite_elapsed (payload : List Byte) (mode : AckMode) (timeout : Option Nat) (s : State) :
    nowAfter 1 (startWrite (pendingWrite payload mode timeout s) s) -
        (pendingWrite payload mode timeout s).t0 = s.env.tick (s.env.tickCount + 1) := by
  rw [nowAfter_one]
  show s.env.ticked.now + s.env.tick (s.env.tickCount + 1) - s.env.ticked.now = _
  omega

/-- Settles O36: the first iteration finds no room, and the clock decides. -/
theorem writeTimesOutOrKeepsPolling : Obligations.WriteTimesOutOrKeepsPolling := by
  intro s payload mode timeout hs hio hfull
  have helapsed := startWrite_elapsed payload mode timeout s
  have hpolling := startWrite_polling (w := pendingWrite payload mode timeout s) hs
  rw [exec_write_eq_step payload mode timeout hs]
  refine ⟨fun htime => ?_, fun htime => ?_⟩
  · rw [step_timesOut hpolling hio hfull (helapsed.symm ▸ htime)]
    exact congrArg (fun t => Host.Outcome.next (State.readClock t)) (startWrite_ended hs 2 1 _ _)
  · rw [step_pollsOn hpolling hio hfull (helapsed.symm ▸ htime)]
    rfl

/-! ## The loop ends (R226) -/

/-- `s` after an iteration that polled on. -/
def polledOn (s : State) : State :=
  { s with trace := s.trace ++ readFrame s.params.aStatus [answer 0 s], env := (s.env.took 2 1).ticked }

theorem polledOn_polling {w : PendingWrite} {s : State} (hs : Polling w s) : Polling w (polledOn s) := hs

theorem answer_polledOn (j : Nat) (s : State) : answer j (polledOn s) = answer (j + 1) s := by
  simp [answer, polledOn, Nat.add_assoc, Nat.add_comm 1]

theorem nowAfter_polledOn (n : Nat) (s : State) : nowAfter n (polledOn s) = nowAfter (n + 1) s := by
  simp [nowAfter, polledOn, List.range_succ_eq_map, Function.comp_def, Nat.add_assoc, Nat.add_comm 1]

theorem ioOk_polledOn {m : Nat} {s : State} (h : IoOk (2 + m) s) : IoOk m (polledOn s) :=
  ioOk_framed (s := s) (n := 1) (es := []) h

/-- What the loop has emitted after `k` reads of STATUS. -/
def statusReads (k : Nat) (s : State) : List Event :=
  (List.range k).flatMap fun j => readFrame s.params.aStatus [answer j s]

theorem statusReads_succ (k : Nat) (s : State) :
    statusReads (k + 1) s = readFrame s.params.aStatus [answer 0 s] ++ statusReads k (polledOn s) := by
  simp only [statusReads, List.range_succ_eq_map, List.flatMap_cons, List.flatMap_map, answer_polledOn]
  rfl

/-- `t` is `s` after a `write` that timed out, having read STATUS `k` times and nothing else. -/
structure TimedOut (k : Nat) (s t : State) : Prop where
  response : t.response = some .transmitTimeout
  running : t.running = none
  txFsm : t.txFsm = .idle
  ce : t.ce = s.ce
  life : t.life = s.life
  dh : t.dh = s.dh
  trace : t.trace = s.trace ++ statusReads k s

/-- A timeout after polling on once is one after one read more. -/
theorem TimedOut.of_polledOn {k : Nat} {s t : State} (h : TimedOut k (polledOn s) t) :
    TimedOut (k + 1) s t :=
  { h with trace := by rw [h.trace, statusReads_succ, ← List.append_assoc]; rfl }

theorem timedOut_ended (s : State) : TimedOut 1 s (s.readClock.ended 2 1
    (readFrame s.params.aStatus [answer 0 s]) .transmitTimeout) := by
  constructor <;> simp [statusReads]

/-- If the clock has passed the deadline by the `n + 1`-th reading, the loop has ended by then. -/
theorem polling_timesOut {w : PendingWrite} {n : Nat} {s : State} (hs : Polling w s)
    (hio : IoOk (2 * (n + 1)) s) (hfull : ∀ j, j ≤ n → FullNoMaxRt (answer j s))
    (htime : w.timeout < nowAfter (n + 1) s - w.t0) :
    ∃ k t, 1 ≤ k ∧ k ≤ n + 1 ∧ Host.Core.run Sys2Proof.core k s = .next t ∧ TimedOut k s t := by
  induction n generalizing s with
  | zero =>
    have hstep := step_timesOut hs hio (hfull 0 le_rfl) htime
    exact ⟨1, _, le_rfl, le_rfl, core_run_succ hstep, timedOut_ended s⟩
  | succ n ih =>
    have hio2 : IoOk 2 s := fun k hk => hio k (by omega)
    by_cases hfirst : w.timeout < nowAfter 1 s - w.t0
    · have hstep := step_timesOut hs hio2 (hfull 0 (by omega)) hfirst
      exact ⟨1, _, le_rfl, by omega, core_run_succ hstep, timedOut_ended s⟩
    · have hstep : step s = .next (polledOn s) :=
        step_pollsOn hs hio2 (hfull 0 (by omega)) (Nat.not_lt.mp hfirst)
      have hrest : IoOk (2 * (n + 1)) (polledOn s) := ioOk_polledOn fun k hk => hio k (by omega)
      obtain ⟨k, t, h1, hk, hrun, ht⟩ := ih (polledOn_polling hs) hrest
        (fun j hj => by rw [answer_polledOn]; exact hfull (j + 1) (by omega))
        (by rw [nowAfter_polledOn]; exact htime)
      exact ⟨k + 1, t, by omega, by omega, (core_run_succ hstep).trans hrun, ht.of_polledOn⟩

/-- Settles O38: by induction on the iteration at which the clock has passed the deadline. -/
theorem pollingEndsOnceTheClockPassesTheDeadline :
    Obligations.PollingEndsOnceTheClockPassesTheDeadline := by
  intro s w n hs hio hfull htime
  obtain ⟨k, t, h1, hk, hrun, ht⟩ := polling_timesOut hs hio hfull htime
  exact ⟨k, t, h1, hk, hrun, ht.response, ht.running, ht.txFsm, ht.ce, ht.life, ht.dh, ht.trace⟩

end Sys2Proof.Machine
end

section
/-! PROOF. The lifecycle sequences (45_lifecycle.md): `init`, `teardown`, `start_listening` and `stop_listening`,
each as the frames it runs one after the other, and what is left where a call of it fails. -/

namespace Sys2Proof.Machine

/-! ## Sequences of frames -/

/-- Frames followed by frames are frames. -/
theorem andThen_framed {α β : Type} {s : State} {r : Ended α} {f : α → State → Ended β} {a : α} {b : β}
    {m n m' n' : Nat} {es es' : List Event} (h : r = .done a (s.framed m n es))
    (h' : f a (s.framed m n es) = .done b ((s.framed m n es).framed m' n' es')) :
    r.andThen f = .done b (s.framed (m + m') (n + n') (es ++ es')) := by
  rw [h, Ended.andThen_done, h', State.framed_framed]

theorem writePayloadWidth_ok {s : State} (p : Pipe) (h : s.env.io s.env.ioCount = .ok) :
    writePayloadWidth p s = .done () (s.framed 1 0
      (writeFrame s.params.aRxPwP[p] [BitVec.ofNat 8 s.dh.staticPayloadSize])) :=
  writeNamed_ok _ _ h

/-- The payload widths of all six pipes, in ascending order (R191 step 4). -/
def widthEvents (P : Params) (size : Nat) : List Event :=
  allPipes.flatMap fun p => writeFrame P.aRxPwP[p] [BitVec.ofNat 8 size]

/-- The width of each pipe of a list is one frame. -/
theorem writePayloadWidths_ok {s : State} (ps : List Pipe) (hps : ps ≠ []) (hio : IoOk ps.length s) :
    writePayloadWidths ps s = .done () (s.framed ps.length 0
      (ps.flatMap fun p => writeFrame s.params.aRxPwP[p] [BitVec.ofNat 8 s.dh.staticPayloadSize])) := by
  induction ps generalizing s with
  | nil => exact absurd rfl hps
  | cons p ps ih =>
    have hwrite := writePayloadWidth_ok p (ioOk_zero hio)
    cases ps with
    | nil => simp [writePayloadWidths, hwrite]
    | cons q qs =>
      have hrest := ih (s := s.framed 1 0
        (writeFrame s.params.aRxPwP[p] [BitVec.ofNat 8 s.dh.staticPayloadSize])) (by simp)
        (fun k hk => by simpa [Nat.add_assoc] using hio (1 + k) (by simp at hk ⊢; omega))
      have hall := andThen_framed (f := fun _ => writePayloadWidths (q :: qs)) hwrite hrest
      rw [writePayloadWidths, hall, List.length_cons (a := p), List.flatMap_cons, Nat.add_comm 1]
      rfl

/-! ## `init` (R191) -/

/-- Steps 3 to 9 of `init`, all that comes after the width. -/
def initRest (s : State) : Ended Unit :=
  (writeChannel s.params.initialChannel s).andThen fun _ s =>
  (writePayloadWidths allPipes s).andThen fun _ s =>
  (disableDynamicPayloads s).andThen fun _ s =>
  (enableAutoAckAll s).andThen fun _ s =>
  (writeNamed .config [configInit s.params] s).andThen fun _ s =>
  (clearInterrupts s).andThen fun _ s =>
  (sendNamed .flushRx s).andThen fun _ s =>
  sendNamed .flushTx s

theorem initSequence_eq (s : State) :
    initSequence s = (activate (loadHandle s)).andThen fun _ t =>
      (writeAddressWidth 5 t).andThen fun _ u => initRest u := rfl

/-- The events of those steps, where FEATURE was answered with `f`. -/
def initRestEvents (P : Params) (size : Nat) (f : Byte) : List Event :=
  writeFrame P.aRfCh [P.initialChannel] ++ (widthEvents P size ++
    ((readFrame 0x1D#5 [f] ++ writeFrame 0x1D#5 [f &&& ~~~bitMask P.bEnDpl]) ++
    (writeFrame P.aEnAa [0x3F#8] ++ (writeFrame 0x00#5 [configInit P] ++
    (writeFrame P.aStatus [0x70#8] ++ (busFrame [0xE2#8] [] ++ busFrame [0xE1#8] []))))))

theorem initRest_ok {s : State} (hio : IoOk 15 s) :
    initRest s = .done () (s.framed 15 1 (initRestEvents s.params s.dh.staticPayloadSize (answer 0 s))) := by
  have hwidths (es : List Event) : IoOk 6 (s.framed 1 0 es) := ioOk_framed fun k hk => hio k (by omega)
  rw [initRest, writeChannel, writeNamed_ok .rfCh _ (hio 0 (by omega)), Ended.andThen_done,
    writePayloadWidths_ok allPipes (by decide) (hwidths _), Ended.andThen_done, disableDynamicPayloads,
    clearBits_ok .feature _ (hio 7 (by omega)) (hio 8 (by omega)) (hio 9 (by omega)), Ended.andThen_done,
    enableAutoAckAll, writeNamed_ok .enAa _ (hio 10 (by omega)), Ended.andThen_done,
    writeNamed_ok .config _ (hio 11 (by omega)), Ended.andThen_done,
    clearInterrupts_ok (hio 12 (by omega)), Ended.andThen_done,
    sendNamed_ok .flushRx (hio 13 (by omega)), Ended.andThen_done,
    sendNamed_ok .flushTx (hio 14 (by omega))]
  simp only [State.framed_framed]
  simp only [initRestEvents, List.append_assoc]
  rfl

theorem initEvents_eq (P : Params) (f : Byte) :
    initEvents P f = busFrame (0x50#8 :: P.activateArg) [] ++ writeFrame P.aSetupAw [3#8] ++
      initRestEvents P (clampedSize P) f := by
  simp [initEvents, initRestEvents, widthEvents, allPipes]

theorem activate_ok {s : State} (h : s.env.io s.env.ioCount = .ok) :
    activate s = .done () (s.framed 1 0 (busFrame (0x50#8 :: s.params.activateArg) [])) :=
  sendOnly_ok _ _ h

/-- The first two frames of `init` load the handle. -/
theorem initSequence_width_ok {s : State} (hio : IoOk 2 s) :
    initSequence s = initRest ((s.framed 2 0
      (busFrame (0x50#8 :: s.params.activateArg) [] ++ writeFrame s.params.aSetupAw [3#8])).withHandle
        (initHandle s)) := by
  rw [initSequence_eq, activate_ok (s := loadHandle s) (hio 0 (by omega)), Ended.andThen_done,
    writeAddressWidth_ok _ (hio 1 (by omega)), Ended.andThen_done, setupAwCode_five, State.framed_framed]
  rfl

/-- `init`'s sequence with a succeeding transport: its sixteen frames and the loaded handle (R191). -/
theorem initSequence_ok {s : State} (hio : IoOk 17 s) :
    initSequence s = .done () ((s.framed 17 1 (initEvents s.params (answer 0 s))).withHandle
      (initHandle s)) := by
  have hrest : IoOk 15 ((s.framed 2 0 (busFrame (0x50#8 :: s.params.activateArg) [] ++
      writeFrame s.params.aSetupAw [3#8])).withHandle (initHandle s)) := ioOk_framed (es := []) hio
  rw [initSequence_width_ok fun k hk => hio k (by omega), initRest_ok hrest, initEvents_eq]
  simp [State.framed, State.withHandle, answer, initHandle]

/-- The CONFIG byte of `init` has four bits and no other (R70). -/
theorem bitOf_configInit (P : Params) (k : BitNo) :
    bitOf (configInit P) k = decide (k = P.bEnCrc ∨ k = P.bCrco ∨ k = P.bPwrUp ∨ k = P.bPrimRx) := by
  simp [configInit, bitOf_or, bitOf_bitMask, Bool.or_assoc]

/-- Settles O50: the sequence succeeds and ends in STANDBY, or the size is refused first. -/
theorem initRunsTheConstructionSequence : Obligations.InitRunsTheConstructionSequence := by
  refine ⟨fun s hs => ⟨fun hreq hio => ?_, fun hreq => ?_⟩, bitOf_configInit, fun _ => rfl⟩
  · rw [exec_init_eq hs.1 hreq, initSequence_ok (s := s.begin) hio, Ended.thenLife, Ended.andThen_done,
      finish_done, ← respond_framed_begin hs]
    rfl
  · have hrefusal : initRefusal .init s = some .staticSizeBelowOne := by
      have hrequest : requestRefusal .init s = none := requestRefusal_none hs.1 rfl
      simp [initRefusal, hrequest, hreq]
    show execInit s = _
    exact accept_refused hrefusal

theorem writeAddressWidth_raised {s : State} {sent report : Nat}
    (h : s.env.io s.env.ioCount = .fail sent report) :
    writeAddressWidth 5 s = .raised (.transportFailure report)
      (s.framed 1 0 (brokenFrame [0x20#8 ||| s.params.aSetupAw.setWidth 8, 3#8] sent)) := by
  rw [writeAddressWidth, writeNamed_fails .setupAw _ h, Ended.andThen_raised, setupAwCode_five]
  rfl

theorem initRest_raised {s : State} {sent report : Nat} (h : s.env.io s.env.ioCount = .fail sent report) :
    initRest s = .raised (.transportFailure report)
      (s.framed 1 0 (brokenFrame [0x20#8 ||| s.params.aRfCh.setWidth 8, s.params.initialChannel] sent)) :=
  Ended.andThen_of_raised _ (writeNamed_fails .rfCh _ h)

/-- Settles O51: the raise comes before the width is cached, or after it. -/
theorem initInterruptedByAFailureKeepsWhatWasDone :
    Obligations.InitInterruptedByAFailureKeepsWhatWasDone := by
  intro s sent report hs hreq
  refine ⟨fun hio hfail => ?_, fun hio hfail => ?_⟩
  · rw [exec_init_eq hs.1 hreq, initSequence_eq, activate_ok (s := loadHandle s.begin) (ioOk_zero hio),
      Ended.andThen_done, writeAddressWidth_raised hfail, Ended.andThen_raised, Ended.thenLife,
      Ended.andThen_raised, finish_raised, State.framed_framed, State.raise_eq, ← respond_framed_begin hs]
    rfl
  · rw [exec_init_eq hs.1 hreq, initSequence_width_ok (s := s.begin) hio, initRest_raised hfail, Ended.thenLife,
      Ended.andThen_raised, finish_raised, State.raise_eq, ← respond_framed_begin hs]
    simp [State.framed, State.withHandle, State.respond, Error.response, initHandle]

/-! ## `teardown` (R196) -/

theorem exec_teardown_eq {s : State} (hs : Ready s) (hreq : 1 ≤ s.params.staticPayloadSizeReq) :
    exec .teardown s = .next (finish (((initSequence s.begin.dropEnable).andThen fun _ t =>
      writeChannel 0#8 t).thenLife .tornDown)) := by
  have hhost : hostRefusal .teardown s = none := hostRefusal_none hs.1.1 hs.2 rfl
  have hsize : ¬ s.params.staticPayloadSizeReq < 1 := by omega
  have hrefusal : teardownRefusal s = none := by simp [teardownRefusal, hhost, hsize]
  show execTeardown s = _
  rw [execTeardown, hrefusal, accept_none]

/-- What is left of an idle block after CE_LOW and frames. -/
theorem respond_dropEnable_framed_begin {s : State} (hs : Idle s) (m n : Nat) (es : List Event)
    (r : Response) :
    (s.begin.dropEnable.framed m n es).respond r = { s.after m n ([.ceLow] ++ es) r with ce := .low } := by
  rw [← respond_framed_begin hs]
  simp [State.dropEnable, State.emit, State.framed, State.respond, State.begin]

theorem exec_teardown_ok {s : State} (hs : Ready s) (hreq : 1 ≤ s.params.staticPayloadSizeReq)
    (hio : IoOk 18 s) :
    exec .teardown s = .next { s.after 18 1
      ([.ceLow] ++ initEvents s.params (answer 0 s) ++ writeFrame s.params.aRfCh [0#8]) (.ok .nothing) with
      dh := initHandle s, ce := .low, life := .tornDown } := by
  rw [exec_teardown_eq hs hreq, initSequence_ok (s := s.begin.dropEnable) fun k hk => hio k (by omega),
    Ended.andThen_done, writeChannel, writeNamed_ok .rfCh _ (hio 17 (by omega)), Ended.thenLife,
    Ended.andThen_done, finish_done, List.append_assoc]
  have hend := respond_dropEnable_framed_begin hs.1 18 1
    (initEvents s.params (answer 0 s) ++ writeFrame s.params.aRfCh [0#8]) (.ok .nothing)
  rw [← State.framed_framed (m := 17) (n := 1) (m' := 1) (n' := 0)] at hend
  exact congrArg (fun t => Host.Outcome.next ((t.withHandle (initHandle s)).setLife .tornDown)) hend

/-- Settles O54: the sequence and the channel write succeed, and TORN_DOWN refuses what `exec_uninitialised`
says. -/
theorem teardownRerunsInit : Obligations.TeardownRerunsInit := by
  intro s hs hreq hio
  exact ⟨_, exec_teardown_ok hs hreq hio, rfl, fun i hsp hi hw => exec_uninitialised hs.1.1 rfl hsp hi hw⟩

/-! ## `stop_listening` (R195) -/

/-- What `stop_listening` does after its flush: PRIM_RX is cleared and all six pipes are enabled. -/
def stopRest (s : State) : Ended Unit :=
  (clearBits .config (bitMask s.params.bPrimRx) s).andThen fun _ t => writeNamed .enRxaddr [allPipesMask] t

theorem stopRest_ok {s : State} (hio : IoOk 4 s) :
    stopRest s = .done () (s.framed 4 1
      (readFrame 0x00#5 [answer 0 s] ++ writeFrame 0x00#5 [answer 0 s &&& ~~~(1#8 <<< s.params.bPrimRx.val)] ++
        writeFrame s.params.aEnRxaddr [0x3F#8])) := by
  rw [stopRest, clearBits_ok .config _ (hio 0 (by omega)) (hio 1 (by omega)) (hio 2 (by omega)),
    Ended.andThen_done, writeNamed_ok .enRxaddr _ (hio 3 (by omega)), State.framed_framed]
  rfl

theorem exec_stopListening_eq {s : State} (hs : Ready s) :
    exec .stopListening s = .next (finish (((flushTxIfAckPayloads s.begin.dropEnable).andThen fun _ t =>
      stopRest t).thenLife .standby)) := by
  show execStopListening s = _
  rw [execStopListening, hostOp_ready hs rfl]
  rfl

/-- How many calls the FLUSH_TX takes that is sent only with acknowledge payloads, FEATURE answered with `f`. -/
def flushCalls (f : Byte) (s : State) : Nat := if bitOf f s.params.bEnAckPay then 1 else 0

/-- That FLUSH_TX (R194 step 5, R195 step 2). -/
def flushEvents (f : Byte) (s : State) : List Event :=
  if bitOf f s.params.bEnAckPay then busFrame [0xE1#8] [] else []

/-- The FEATURE read and the flush, if it is due, by the calls they take. -/
theorem flushTxIfAckPayloads_done {s : State} (hio : IoOk (2 + flushCalls (answer 0 s) s) s) :
    flushTxIfAckPayloads s = .done () (s.framed (2 + flushCalls (answer 0 s) s) 1
      (readFrame 0x1D#5 [answer 0 s] ++ flushEvents (answer 0 s) s)) := by
  refine flushTxIfAckPayloads_ok (hio 0 (by omega)) (hio 1 (by omega)) fun hb => hio 2 ?_
  have hcalls : flushCalls (answer 0 s) s = 1 := if_pos hb
  omega

/-- The events of `stop_listening` after CE_LOW, where FEATURE was answered with `f` and CONFIG with `c`. -/
def stopEvents (f c : Byte) (s : State) : List Event :=
  readFrame 0x1D#5 [f] ++ (flushEvents f s ++ (readFrame 0x00#5 [c] ++
    (writeFrame 0x00#5 [c &&& ~~~(1#8 <<< s.params.bPrimRx.val)] ++
      writeFrame s.params.aEnRxaddr [0x3F#8])))

theorem stopSequence_ok {s : State} (hio : IoOk (6 + flushCalls (answer 0 s) s) s) :
    ((flushTxIfAckPayloads s).andThen fun _ t => stopRest t) =
      .done () (s.framed (6 + flushCalls (answer 0 s) s) 2 (stopEvents (answer 0 s) (answer 1 s) s)) := by
  have hcalls : 6 + flushCalls (answer 0 s) s = 2 + flushCalls (answer 0 s) s + 4 := by omega
  rw [hcalls] at hio ⊢
  have hrest (es : List Event) := stopRest_ok (s := s.framed _ 1 es) (ioOk_framed hio)
  rw [flushTxIfAckPayloads_done fun k hk => hio k (by omega), Ended.andThen_done, hrest, State.framed_framed]
  simp only [stopEvents, List.append_assoc]
  rfl

/-- Settles O53: after CE_LOW, the flush if it is due, the clear of PRIM_RX, and all six pipes. -/
theorem stopListeningRunsItsSteps : Obligations.StopListeningRunsItsSteps := by
  intro s hs hio
  rw [exec_stopListening_eq hs, stopSequence_ok (s := s.begin.dropEnable) hio, Ended.thenLife,
    Ended.andThen_done, finish_done]
  refine (congrArg (fun t => Host.Outcome.next (State.setLife .standby t))
    (respond_dropEnable_framed_begin hs.1 _ _ _ _)).trans ?_
  simp only [List.append_assoc]
  rfl

/-! ## `start_listening` (R194) -/

theorem exec_startListening_eq {s : State} (hs : Ready s) :
    exec .startListening s = .next (finish (((listenSetup s.begin).andThen fun _ t =>
      flushTxIfAckPayloads t.raiseEnable).thenLife .listening)) := by
  show execStartListening s = _
  rw [execStartListening, hostOp_ready hs rfl]
  simp only [listenSetup, Ended.andThen_assoc]

/-- The frame that restores the cached address of pipe 0, if there is one (R143). -/
def restoreEvents (s : State) : List Event :=
  match s.dh.pipe0ReadingAddress with
  | none => []
  | some a => writeFrame s.params.aRxAddrP[0] a

/-- The call it takes. -/
def restoreCalls (s : State) : Nat := if s.dh.pipe0ReadingAddress.isSome then 1 else 0

theorem restorePipe0_ok {s : State} (hc : s.csn = .released) (hio : IoOk (restoreCalls s) s) :
    restorePipe0 s = .done () (s.framed (restoreCalls s) 0 (restoreEvents s)) := by
  unfold restorePipe0 restoreCalls restoreEvents at *
  cases ha : s.dh.pipe0ReadingAddress with
  | none => simp [State.framed, ← hc]
  | some a =>
    simp only [ha, Option.isSome_some, if_true] at hio ⊢
    exact writeNamed_ok _ a (ioOk_zero hio)

/-- The events of steps 1 to 3 of `start_listening`, where CONFIG was answered with `c`. -/
def listenSetupEvents (c : Byte) (s : State) : List Event :=
  readFrame 0x00#5 [c] ++ writeFrame 0x00#5 [c ||| 1#8 <<< s.params.bPrimRx.val] ++
    writeFrame s.params.aStatus [0x70#8] ++ restoreEvents s

theorem listenEvents_eq (c : Byte) (s : State) : listenEvents c s = listenSetupEvents c s ++ [.ceHigh] := rfl

theorem listenSetup_ok {s : State} (hio : IoOk (listenCalls s) s) :
    listenSetup s = .done () (s.framed (listenCalls s) 1 (listenSetupEvents (answer 0 s) s)) := by
  have hcalls : listenCalls s = 4 + restoreCalls s := rfl
  rw [hcalls] at hio ⊢
  have hrestore (es : List Event) := restorePipe0_ok (s := s.framed 4 1 es) rfl (ioOk_framed hio)
  rw [listenSetup, setBits_ok .config _ (hio 0 (by omega)) (hio 1 (by omega)) (hio 2 (by omega)),
    Ended.andThen_done, clearInterrupts_ok (hio 3 (by omega)), Ended.andThen_done, State.framed_framed,
    hrestore, State.framed_framed]
  rfl

/-- What is left of an idle block after frames, CE_HIGH and frames. -/
theorem respond_raiseEnable_framed_begin {s : State} (hs : Idle s) (m n m' n' : Nat) (es es' : List Event)
    (r : Response) :
    ((s.begin.framed m n es).raiseEnable.framed m' n' es').respond r =
      { s.after (m + m') (n + n') (es ++ [.ceHigh] ++ es') r with ce := .high } := by
  rw [← respond_framed_begin hs]
  simp [State.raiseEnable, State.emit, State.framed, State.respond]

/-- The state in which `start_listening` has raised the enable line. -/
def listenRaised (s : State) : State :=
  (s.begin.framed (listenCalls s) 1 (listenSetupEvents (answer 0 s) s)).raiseEnable

theorem exec_startListening_setup_ok {s : State} (hs : Ready s) (hio : IoOk (listenCalls s) s) :
    exec .startListening s =
      .next (finish ((flushTxIfAckPayloads (listenRaised s)).thenLife .listening)) := by
  rw [exec_startListening_eq hs, listenSetup_ok (s := s.begin) hio, Ended.andThen_done]
  rfl

theorem exec_startListening_ok {s : State} (hs : Ready s)
    (hio : IoOk (listenCalls s + 2 + flushCalls (answer 1 s) s) s) :
    exec .startListening s =
      .next { s.after (listenCalls s + 2 + flushCalls (answer 1 s) s) 2
        (listenEvents (answer 0 s) s ++ readFrame 0x1D#5 [answer 1 s] ++ flushEvents (answer 1 s) s)
        (.ok .nothing) with ce := .high, life := .listening } := by
  rw [Nat.add_assoc] at hio ⊢
  have hflush := flushTxIfAckPayloads_done (s := listenRaised s) (ioOk_framed (s := s) (n := 1) (es := []) hio)
  have hend := respond_raiseEnable_framed_begin hs.1 (listenCalls s) 1 (2 + flushCalls (answer 1 s) s) 1
    (listenSetupEvents (answer 0 s) s) (readFrame 0x1D#5 [answer 1 s] ++ flushEvents (answer 1 s) s)
    (.ok .nothing)
  rw [exec_startListening_setup_ok hs fun k hk => hio k (by omega), hflush, Ended.thenLife,
    Ended.andThen_done, finish_done, listenEvents_eq, List.append_assoc (listenSetupEvents _ _ ++ _)]
  exact congrArg (fun t => Host.Outcome.next (State.setLife .listening t)) hend

/-- A raise after CE_HIGH leaves the enable line high and the lifecycle state as it was (R218). -/
theorem exec_startListening_late_raise {s : State} {m n report : Nat} {es : List Event} (hs : Ready s)
    (hio : IoOk (listenCalls s) s)
    (h : flushTxIfAckPayloads (listenRaised s) =
      .raised (.transportFailure report) ((listenRaised s).framed m n es)) :
    exec .startListening s =
      .next { s.after (listenCalls s + m) (1 + n) (listenEvents (answer 0 s) s ++ es)
        (.transportFailure report) with ce := .high } := by
  rw [exec_startListening_setup_ok hs hio, h, Ended.thenLife, Ended.andThen_raised, finish_raised,
    State.raise_eq]
  exact congrArg _ (respond_raiseEnable_framed_begin hs.1 _ _ _ _ _ _ _)

theorem flushTxIfAckPayloads_feature_raised {s t : State} {e : Error}
    (h : readByte .feature s = .raised e t) : flushTxIfAckPayloads s = .raised e t :=
  Ended.andThen_of_raised _ (Ended.map_of_raised _ h)

theorem flushTxIfAckPayloads_flush_fails {s : State} {sent report : Nat} (hio : IoOk 2 s)
    (hb : bitOf (answer 0 s) s.params.bEnAckPay = true)
    (hfail : s.env.io (s.env.ioCount + 2) = .fail sent report) :
    flushTxIfAckPayloads s = .raised (.transportFailure report)
      (s.framed 3 1 (readFrame 0x1D#5 [answer 0 s] ++ brokenFrame [0xE1#8] sent)) := by
  have hbit : bitOf (s.env.rx s.env.rxCount) s.params.bEnAckPay = true := hb
  rw [flushTxIfAckPayloads, readAckPayloads, readByte_ok .feature (hio 0 (by omega)) (hio 1 (by omega)),
    Ended.map_done, Ended.andThen_done, if_pos hbit, sendNamed, sendOnly_fails _ _ hfail, State.framed_framed]
  rfl

/-- Settles O52: the setup succeeds, and after CE_HIGH the FEATURE read and the flush succeed or one of them is
raised out of. -/
theorem startListeningRunsItsSteps : Obligations.StartListeningRunsItsSteps := by
  refine ⟨fun s hs hio => exec_startListening_ok hs hio, fun s sent report hs => ⟨fun hio hfail => ?_,
    fun hio hfail => ?_, fun hio hb hfail => ?_⟩⟩
  · have hraised := flushTxIfAckPayloads_feature_raised
      (readByte_write_fails (s := listenRaised s) .feature hfail)
    rw [featureReadCommand_eq] at hraised
    exact exec_startListening_late_raise hs hio hraised
  · have hraised := flushTxIfAckPayloads_feature_raised
      (readByte_fails (s := listenRaised s) .feature (hio _ (Nat.lt_succ_self _)) hfail)
    exact exec_startListening_late_raise hs (fun k hk => hio k (by omega)) hraised
  · have hraised := flushTxIfAckPayloads_flush_fails (s := listenRaised s)
      (ioOk_framed (s := s) (n := 1) (es := []) hio) hb hfail
    rw [exec_startListening_late_raise hs (fun k hk => hio k (by omega)) hraised, ← List.append_assoc]
    rfl

end Sys2Proof.Machine
end
